-- ==== Sys2Proof/Word.lean ====
section
/-! DEFINITION. The widths of the block's scalars (`00_scope.md` rules R7, R9; `30_encoding.md` rule R84) and the word of its
command port: one transaction. -/

namespace Sys2Proof

/-- A byte, 8 bits (R9). -/
abbrev Byte := BitVec 8

/-- Four bits: a subnet or universe number (R24). -/
abbrev Nibble := BitVec 4

/-- A 16-bit quantity: a command's operand `a`, a datagram opcode, the result `ret` (R14, R84). -/
abbrev Half := BitVec 16

/-- A network address, `ADDR_W` = 32 bits (R7, R88). -/
abbrev Addr := BitVec 32

/-- One transaction on the command port (`30_encoding.md` rule R84): the code `cmd[3:0]`, the operands `a[15:0]`, `b[7:0]`,
`addr[31:0]`, and RXLOAD's byte string. Its length `n` is the string's own length (log 14). -/
structure Transaction where
  cmd   : BitVec 4
  a     : Half
  b     : Byte
  addr  : Addr
  bytes : List Byte
  deriving DecidableEq, Repr

end Sys2Proof
end

