-- ==== Sys2Proof/Config.lean ====
section
/-! DEFINITION. The implementation parameters of `00_scope.md` rule R7 and the constraints of rule R8. A parameter the spec
leaves OPEN is a field of `Params`; a machine state carries one value of `Params` that no step writes (log 4), so a statement
about every state holds for every value of every parameter. -/

namespace Sys2Proof

/-- `SLOT_CAP` (R7): 512, fixed. -/
def slotCap : Nat := 512

/-- `HEADER_LEN` (R7): 8 magic bytes and 2 opcode bytes. -/
def headerLen : Nat := 10

/-- `DATA_HDR_LEN` (R7, R76): the fixed part of a DATA datagram. -/
def dataHdrLen : Nat := 18

/-- `POLL_REPLY_LEN` (R7, R176): 239, fixed. -/
def pollReplyLen : Nat := 239

/-- The parameters of one instance (R7). `magicHead` is `MAGIC[0..6]`; `MAGIC[7]` is fixed at 0. `ad…` are the ADDRESS field
offsets of R78 and `pr…` the POLL_REPLY field offsets of R80, which the spec asks a model to take as parameters. -/
structure Params where
  rawCap           : Nat
  magicHead        : Vector Byte 7
  protVer          : Half
  seqInit          : Byte
  nodePort         : Half
  fwVersion        : Half
  shortNameLen     : Nat
  longNameLen      : Nat
  reportLen        : Nat
  shortNameInit    : List Byte
  longNameInit     : List Byte
  nodeReport       : List Byte
  uaInit           : Byte
  slotsInit        : BitVec 10
  prStatusUnlocked : Byte
  prStatusLocked   : Byte
  addrMinLen       : Nat
  adShortName      : Nat
  adLongName       : Nat
  adUniverse       : Nat
  adSubnet         : Nat
  adCommand        : Nat
  prNodeAddr       : Nat
  prPort           : Nat
  prFirmware       : Nat
  prSubnet         : Nat
  prShortName      : Nat
  prLongName       : Nat
  prReport         : Nat
  prStatus         : Nat
  prUniverse       : Nat
  deriving DecidableEq, Repr

/-- `MAGIC[0..7]` (R7, R71): the seven open bytes and `MAGIC[7] = 0x00`. -/
def Params.magic (p : Params) : List Byte := p.magicHead.toList ++ [0x00]

/-- The fields of a POLL_REPLY as (offset, size), the header's two among them (R80). -/
def Params.replyFields (p : Params) : List (Nat × Nat) :=
  [(0, 8), (8, 2), (p.prNodeAddr, 4), (p.prPort, 2), (p.prFirmware, 2), (p.prSubnet, 1), (p.prShortName, p.shortNameLen),
   (p.prLongName, p.longNameLen), (p.prReport, p.reportLen), (p.prStatus, 1), (p.prUniverse, 1)]

/-- Two fields given as (offset, size) share no byte. -/
abbrev FieldsApart (f g : Nat × Nat) : Prop := f.1 + f.2 ≤ g.1 ∨ g.1 + g.2 ≤ f.1

/-- The ADDRESS fields lie inside the `addrMinLen` bytes that R141 asks for, and a name field has a first byte (R142).
DESIGN CHOICE, log 11: the spec gives the offsets' defaults and no constraint on other values. -/
abbrev Params.AddressLayoutOk (p : Params) : Prop :=
  0 < p.shortNameLen ∧ 0 < p.longNameLen ∧
  p.adShortName + p.shortNameLen ≤ p.addrMinLen ∧ p.adLongName + p.longNameLen ≤ p.addrMinLen ∧
  p.adUniverse < p.addrMinLen ∧ p.adSubnet < p.addrMinLen ∧ p.adCommand < p.addrMinLen

/-- The POLL_REPLY fields lie inside the 239 bytes and share none. DESIGN CHOICE, log 11. -/
abbrev Params.ReplyLayoutOk (p : Params) : Prop :=
  (∀ f ∈ p.replyFields, f.1 + f.2 ≤ pollReplyLen) ∧ p.replyFields.Pairwise FieldsApart

/-- The constraints every instantiation satisfies: R8's, the initial strings' lengths (R7), and the two layout checks. -/
abbrev Params.Valid (p : Params) : Prop :=
  530 ≤ p.rawCap ∧ 1 ≤ p.slotsInit.toNat ∧ p.slotsInit.toNat ≤ slotCap ∧ p.prStatusUnlocked ≠ p.prStatusLocked ∧
  p.shortNameInit.length = p.shortNameLen ∧ p.longNameInit.length = p.longNameLen ∧ p.nodeReport.length = p.reportLen ∧
  p.AddressLayoutOk ∧ p.ReplyLayoutOk

/-- The parameter values of the spec's "fresh" engine: R7's defaults, and all-zero names and report where R7 has no default
(`95_test_vectors.md`, notation). DESIGN CHOICE, logs 5 and 6. -/
def Params.fresh : Params where
  rawCap           := 530
  magicHead        := #v[0x41, 0x72, 0x74, 0x2D, 0x4E, 0x65, 0x74]
  protVer          := 0x000E
  seqInit          := 0x00
  nodePort         := 0x1936
  fwVersion        := 0x0001
  shortNameLen     := 18
  longNameLen      := 64
  reportLen        := 64
  shortNameInit    := List.replicate 18 0x00
  longNameInit     := List.replicate 64 0x00
  nodeReport       := List.replicate 64 0x00
  uaInit           := 0x00
  slotsInit        := 512
  prStatusUnlocked := 0x00
  prStatusLocked   := 0x08
  addrMinLen       := 107
  adShortName      := 14
  adLongName       := 32
  adUniverse       := 100
  adSubnet         := 104
  adCommand        := 106
  prNodeAddr       := 10
  prPort           := 14
  prFirmware       := 16
  prSubnet         := 19
  prShortName      := 26
  prLongName       := 44
  prReport         := 108
  prStatus         := 182
  prUniverse       := 190

/-- `NODE_ADDR` of the spec's "fresh" engine, 192.168.1.50 (`95_test_vectors.md`, notation). DESIGN CHOICE, log 6. -/
def freshNodeAddr : Addr := 0xC0A80132

/-- `BCAST` of the spec's "fresh" engine: absent. DESIGN CHOICE, log 6. -/
def freshBcast : Option Addr := none

end Sys2Proof
end

