-- ==== Sys2Proof/Syntax.lean ====
section
/-! DEFINITION. The instructions: the 15 commands and the reserved code of `30_encoding.md` rule R84, and the five datagram
rows of rule R74, one constructor per row of `spec/opcode_table.json`. -/

namespace Sys2Proof

/-- A command of the port with the operands it uses (R84), or a datagram that DECODE acts on (R74). A datagram row has no
operand of its own: it reads the datagram in `raw` (R120, R140 "Operands: none of its own"); DG_OTHER keeps the opcode that
made it one. -/
inductive Instr where
  | rxload (src : Addr) (bytes : List Byte)
  | decode
  | encData (dest : Addr)
  | encPollReply (pollSrc : Addr)
  | setUniverse (u : Byte)
  | setSubnetUniverse (sub u : Byte)
  | setUniverseAddress (c : Byte)
  | setSubnetAddress (c : Byte)
  | getUniverse
  | getSubnetUniverse
  | setNumSlots (n : Half)
  | getNumSlots
  | setSlot (idx : Half) (v : Byte)
  | getSlot (idx : Half)
  | readSlots
  | reservedF
  | dgPoll
  | dgPollReply
  | dgData
  | dgAddress
  | dgOther (op : Half)
  deriving DecidableEq, Repr

end Sys2Proof
end

