-- ==== Sys2Proof/WellFormed.lean ====
section
/-! DEFINITION. Which terms of `Instr` some encoding stands for. -/

namespace Sys2Proof

/-- The four opcodes DECODE knows (`30_encoding.md` rule R74). -/
def knownOpcodes : List Half := [0x2000, 0x2100, 0x5000, 0x6000]

/-- Every operand of a command is well formed at its port width (R85). DG_OTHER's opcode is none of the four (R107). -/
def Instr.wellFormed : Instr → Bool
  | .rxload _ _ => true
  | .decode => true
  | .encData _ => true
  | .encPollReply _ => true
  | .setUniverse _ => true
  | .setSubnetUniverse _ _ => true
  | .setUniverseAddress _ => true
  | .setSubnetAddress _ => true
  | .getUniverse => true
  | .getSubnetUniverse => true
  | .setNumSlots _ => true
  | .getNumSlots => true
  | .setSlot _ _ => true
  | .getSlot _ => true
  | .readSlots => true
  | .reservedF => true
  | .dgPoll => true
  | .dgPollReply => true
  | .dgData => true
  | .dgAddress => true
  | .dgOther op => !knownOpcodes.contains op

end Sys2Proof
end

