-- ==== Sys2Proof/Decode.lean ====
section
/-! DEFINITION. The two decoders, of the command port's transactions (`30_encoding.md` rule R84) and of datagram headers (rules
R71 to R74), and after them the encoder written from the same tables. -/

namespace Sys2Proof

/-- `hi : lo`, the big-endian pair `be16` of R11 and, with the bytes exchanged, the little-endian `le16`. -/
def joinBytes (hi lo : Byte) : Half := hi ++ lo

/-- Bits 15..8 of a 16-bit value. -/
def hiByte (v : Half) : Byte := v.extractLsb' 8 8

/-- Bits 7..0 of a 16-bit value. -/
def loByte (v : Half) : Byte := v.extractLsb' 0 8

/-- The instruction a transaction asks for (R84). Every code has a row; code 0xF is the reserved one (R195). Operands a
command does not use are ignored. -/
def decodeCommand (t : Transaction) : Instr :=
  match t.cmd.toNat with
  | 0x0 => .rxload t.addr t.bytes
  | 0x1 => .decode
  | 0x2 => .encData t.addr
  | 0x3 => .encPollReply t.addr
  | 0x4 => .setUniverse (loByte t.a)
  | 0x5 => .setSubnetUniverse (hiByte t.a) (loByte t.a)
  | 0x6 => .setUniverseAddress (loByte t.a)
  | 0x7 => .setSubnetAddress (loByte t.a)
  | 0x8 => .getUniverse
  | 0x9 => .getSubnetUniverse
  | 0xA => .setNumSlots t.a
  | 0xB => .getNumSlots
  | 0xC => .setSlot t.a t.b
  | 0xD => .getSlot t.a
  | 0xE => .readSlots
  | _ => .reservedF

/-- The five kinds of datagram DECODE tells apart once the header is valid (R74). -/
inductive Datagram where
  | poll
  | pollReply
  | data
  | address
  | other (op : Half)
  deriving DecidableEq, Repr

/-- Why a byte string is no datagram of the protocol (R102, R103). -/
inductive DecodeReject where
  /-- Fewer than 10 bytes (R102). -/
  | shortHeader
  /-- One of the eight magic bytes differs (R103). -/
  | badMagic
  deriving DecidableEq, Repr

/-- The opcode map of R74: the whole 16-bit value is compared. -/
def datagramOfOpcode (op : Half) : Datagram :=
  if op = 0x2000 then .poll
  else if op = 0x2100 then .pollReply
  else if op = 0x5000 then .data
  else if op = 0x6000 then .address
  else .other op

/-- The header validator and the opcode read of R102, R103, R104, on any byte string: length first, then all eight magic bytes,
then the little-endian opcode at offset 8. -/
def decodeDatagram (p : Params) (bytes : List Byte) : Except DecodeReject Datagram :=
  if bytes.length < headerLen then .error .shortHeader
  else if bytes.take 8 ≠ p.magic then .error .badMagic
  else .ok (datagramOfOpcode (joinBytes (bytes.getD 9 0) (bytes.getD 8 0)))

/-- The instruction a kind of datagram stands for: its row of the opcode table. -/
def Datagram.instr : Datagram → Instr
  | .poll => .dgPoll
  | .pollReply => .dgPollReply
  | .data => .dgData
  | .address => .dgAddress
  | .other op => .dgOther op

/-- What carries an instruction: a transaction on the command port, or a datagram in the raw buffer. -/
inductive Wire where
  | command (t : Transaction)
  | datagram (bytes : List Byte)
  deriving DecidableEq, Repr

/-- The decoder of either carrier, total, rejecting by name. -/
def decodeWire (p : Params) : Wire → Except DecodeReject Instr
  | .command t => .ok (decodeCommand t)
  | .datagram bytes => (decodeDatagram p bytes).map Datagram.instr

/-- The common header of R71 with the opcode little-endian (R73). -/
def headerBytes (p : Params) (op : Half) : List Byte := p.magic ++ [loByte op, hiByte op]

/-- The opcode of a datagram row (R74). -/
def Datagram.opcode : Datagram → Half
  | .poll => 0x2000
  | .pollReply => 0x2100
  | .data => 0x5000
  | .address => 0x6000
  | .other op => op

/-- A transaction that uses no operand (R84); the operands a command ignores are encoded as zeros (log 24). -/
def bareCommand (code : BitVec 4) : Transaction := { cmd := code, a := 0, b := 0, addr := 0, bytes := [] }

/-- The words of an instruction: the transaction of R84, or the 10 header bytes of R71 that make a datagram one of its kind
(log 25). -/
def encode (p : Params) : Instr → Wire
  | .rxload src bytes => .command { bareCommand 0x0 with addr := src, bytes := bytes }
  | .decode => .command (bareCommand 0x1)
  | .encData dest => .command { bareCommand 0x2 with addr := dest }
  | .encPollReply pollSrc => .command { bareCommand 0x3 with addr := pollSrc }
  | .setUniverse u => .command { bareCommand 0x4 with a := joinBytes 0 u }
  | .setSubnetUniverse sub u => .command { bareCommand 0x5 with a := joinBytes sub u }
  | .setUniverseAddress c => .command { bareCommand 0x6 with a := joinBytes 0 c }
  | .setSubnetAddress c => .command { bareCommand 0x7 with a := joinBytes 0 c }
  | .getUniverse => .command (bareCommand 0x8)
  | .getSubnetUniverse => .command (bareCommand 0x9)
  | .setNumSlots n => .command { bareCommand 0xA with a := n }
  | .getNumSlots => .command (bareCommand 0xB)
  | .setSlot idx v => .command { bareCommand 0xC with a := idx, b := v }
  | .getSlot idx => .command { bareCommand 0xD with a := idx }
  | .readSlots => .command (bareCommand 0xE)
  | .reservedF => .command (bareCommand 0xF)
  | .dgPoll => .datagram (headerBytes p (Datagram.opcode .poll))
  | .dgPollReply => .datagram (headerBytes p (Datagram.opcode .pollReply))
  | .dgData => .datagram (headerBytes p (Datagram.opcode .data))
  | .dgAddress => .datagram (headerBytes p (Datagram.opcode .address))
  | .dgOther op => .datagram (headerBytes p op)

/-- The number a carrier shows under the table's numbering: the code of a transaction, or the 16-bit opcode of a datagram with
bit 0 the lowest bit of `raw[8]` (R73, R84). -/
def Wire.tableWord : Wire → Nat
  | .command t => t.cmd.toNat
  | .datagram bytes => (bytes.getD 8 0).toNat + 256 * (bytes.getD 9 0).toNat

/-- The row of `spec/opcode_table.json` an instruction belongs to, as its match and mask. -/
def Instr.tableRow : Instr → Nat × Nat
  | .rxload _ _ => (0x0, 0xF)
  | .decode => (0x1, 0xF)
  | .encData _ => (0x2, 0xF)
  | .encPollReply _ => (0x3, 0xF)
  | .setUniverse _ => (0x4, 0xF)
  | .setSubnetUniverse _ _ => (0x5, 0xF)
  | .setUniverseAddress _ => (0x6, 0xF)
  | .setSubnetAddress _ => (0x7, 0xF)
  | .getUniverse => (0x8, 0xF)
  | .getSubnetUniverse => (0x9, 0xF)
  | .setNumSlots _ => (0xA, 0xF)
  | .getNumSlots => (0xB, 0xF)
  | .setSlot _ _ => (0xC, 0xF)
  | .getSlot _ => (0xD, 0xF)
  | .readSlots => (0xE, 0xF)
  | .reservedF => (0xF, 0xF)
  | .dgPoll => (0x2000, 0xFFFF)
  | .dgPollReply => (0x2100, 0xFFFF)
  | .dgData => (0x5000, 0xFFFF)
  | .dgAddress => (0x6000, 0xFFFF)
  | .dgOther _ => (0x0000, 0x0000)

/-- Whether a row that the table gives `nbits` bits is a row of the command port (a 4-bit code, one byte at most) or a datagram
row (a 16-bit opcode, or DG_OTHER's, which has no fixed bit) (log 13). -/
def isCommandRow (nbits : Nat) : Bool := 1 ≤ nbits && nbits ≤ 8

/-- The transaction whose code is the table's word, every operand zero (log 13). -/
def tableCommand (w : Nat) : Transaction := bareCommand (BitVec.ofNat 4 w)

/-- The longest datagram that any rule reads: 18 fixed bytes and 512 slots (R76). -/
def longestDatagram : Nat := dataHdrLen + slotCap

/-- A datagram with a valid header whose opcode is the table's word, zeros after it up to the longest datagram (log 13). -/
def tableDatagram (p : Params) (w : Nat) : List Byte :=
  headerBytes p (BitVec.ofNat 16 w) ++ List.replicate (longestDatagram - headerLen) 0x00

/-- The instruction this file's decoders read from the table's word `w` of `nbits` bits. -/
def decodeTableWord (nbits w : Nat) : Option Instr :=
  let wire : Wire :=
    if isCommandRow nbits then .command (tableCommand w) else .datagram (tableDatagram Params.fresh w)
  (decodeWire Params.fresh wire).toOption

end Sys2Proof
end

