-- ==== Sys2Proof/Machine/Memory.lean ====
section
/-! DEFINITION. A byte memory as plain data: (address, byte) pairs, addresses strictly rising, no pair equal to what an unlisted
address reads as. The slot space and the raw space (`20_memory.md` rule R50) are two such memories. -/

namespace Sys2Proof.Machine

/-- A byte memory (R50). -/
abbrev Memory := List Host.Cell

/-- What an unlisted address reads as: 0x00. For the slot space it is the reset value R34 gives; for the raw space, where R34
says "unspecified; unobservable", it is a DESIGN CHOICE (log 8). -/
def Memory.unlisted : Byte := 0x00

/-- Read one byte. -/
def Memory.read : Memory → Nat → Byte
  | [], _ => Memory.unlisted
  | (k, v) :: m, a => if k = a then v else Memory.read m a

/-- Write one byte, keeping the canonical form: the value an unlisted address reads as removes the pair. -/
def Memory.write : Memory → Nat → Byte → Memory
  | [], a, v => if v = Memory.unlisted then [] else [(a, v)]
  | (k, u) :: m, a, v =>
    if a < k then (if v = Memory.unlisted then (k, u) :: m else (a, v) :: (k, u) :: m)
    else if a = k then (if v = Memory.unlisted then m else (a, v) :: m)
    else (k, u) :: Memory.write m a v

/-- `n` bytes from address `a` up (R10's `raw[a..b]`). -/
def Memory.readBytes (m : Memory) : Nat → Nat → List Byte
  | _, 0 => []
  | a, n + 1 => m.read a :: m.readBytes (a + 1) n

/-- Store a byte string from address `a` up. One command is one atomic transition, so the order of the single stores cannot be
observed (`20_memory.md` rule R53; log 15). -/
def Memory.writeBytes (m : Memory) : Nat → List Byte → Memory
  | _, [] => m
  | a, v :: vs => (m.writeBytes (a + 1) vs).write a v

/-- The canonical form. -/
abbrev Memory.Canonical (m : Memory) : Prop :=
  m.Pairwise (fun c d => c.1 < d.1) ∧ ∀ c ∈ m, c.2 ≠ Memory.unlisted

/-- Every listed address is in `lo..hi` inclusive of `lo`, exclusive of `hi`. -/
abbrev Memory.Within (m : Memory) (lo hi : Nat) : Prop := ∀ c ∈ m, lo ≤ c.1 ∧ c.1 < hi

/-- `Memory.Canonical` as a Bool. -/
def Memory.wf (m : Memory) : Bool := decide m.Canonical

end Sys2Proof.Machine
end

