-- ==== Sys2Proof/Machine/State.lean ====
section
/-! DEFINITION. The state of the block (`10_state.md` rules R22 to R30), the model's own fields beside it, the reasons a step could
stop, and the state after reset (rule R34). -/

namespace Sys2Proof.Machine

/-- One move of the owner between two commands (`60_exceptions.md` rule R220): a command, or the reset input with its
construction inputs `NODE_ADDR` and `BCAST` (`70_reset_and_hazards.md` rules R230, R233). -/
inductive Request where
  | command (t : Transaction)
  | reset (nodeAddr : Addr) (bcast : Option Addr)
  deriving DecidableEq, Repr

/-- The block has no fault, trap or stuck state (`60_exceptions.md` rule R210), so there is no reason to name: no step raises
one. Safe: nothing is hidden behind it. -/
inductive Fault where
  deriving DecidableEq, Repr

/-- Why a step could be refused. -/
inductive Refusal where
  /-- Raised by `exec` alone, for an instruction that has no meaning yet; every instruction has one, so nothing raises it. Safe:
  it would stop the run. -/
  | notModelled (mnemonic : String)
  deriving DecidableEq, Repr

/-- The architectural state, and after it the model's own fields: the instance's parameters, the result port and the owner's
requests (logs 1, 3, 4). -/
@[ext]
structure State where
  /-- SlotBuffer, `slot[1..512]` at keys 1..512 (R22). -/
  slots       : Memory
  /-- The count of meaningful slots, 10 bits (R23). -/
  activeSlots : BitVec 10
  /-- UniverseAddress, subnet in bits 7..4 and universe in bits 3..0 (R24). -/
  ua          : Byte
  /-- MergeLock's valid bit (R25). -/
  lockValid   : Bool
  /-- MergeLock's address; meaningless while `lockValid` is false (R25). -/
  lockAddr    : Addr
  /-- SequenceCounter (R26). -/
  seq         : Byte
  /-- RawDatagramBuffer, `raw[0..RAW_CAP-1]` (R27). -/
  raw         : Memory
  /-- Length of the datagram now in `raw` (R27). -/
  rawLen      : Nat
  /-- Source address of the datagram last loaded (R28). -/
  rxSrc       : Addr
  /-- NodeIdentity: the node's own address (R29). -/
  nodeAddr    : Addr
  /-- NodeIdentity: whether a broadcast address is present (R29). -/
  bcastValid  : Bool
  /-- NodeIdentity: the broadcast address (R29). -/
  bcastAddr   : Addr
  /-- The short node name (R30). -/
  shortName   : List Byte
  /-- The long node name (R30). -/
  longName    : List Byte
  /-- The model's own: the result port's `ret[15:0]` (R84; log 3). -/
  ret         : Half
  /-- The model's own: `tx_dest` of an encode command, `none` where the last command drives none (R84; log 3). -/
  txDest      : Option Addr
  /-- The model's own: READ_SLOTS' 512 bytes, `none` where the last command drives none (R194; log 3). -/
  slotsOut    : Option (List Byte)
  /-- The model's own: the instance's parameters (R7; log 4). -/
  par         : Params
  /-- The model's own: the owner's requests not yet served, the next one first (R245; log 1). -/
  port        : List Request
  deriving DecidableEq, Repr

/-- The reset value of every element (R34), for parameters `p` and construction inputs `nodeAddr` and `bcast` (R233); `port` is
the owner's and is given. -/
def State.resetOf (p : Params) (nodeAddr : Addr) (bcast : Option Addr) (port : List Request) : State where
  slots       := []
  activeSlots := p.slotsInit
  ua          := p.uaInit
  lockValid   := false
  lockAddr    := 0x00000000
  seq         := p.seqInit
  raw         := []
  rawLen      := 0
  rxSrc       := 0x00000000
  nodeAddr    := nodeAddr
  bcastValid  := bcast.isSome
  bcastAddr   := bcast.getD 0x00000000
  shortName   := p.shortNameInit
  longName    := p.longNameInit
  ret         := 0x0000
  txDest      := none
  slotsOut    := none
  par         := p
  port        := port

/-- The machine right after reset: R34 at the parameter values of the spec's "fresh" engine, with no request waiting (logs 2, 5,
6, 7, 8). -/
def State.reset : State := State.resetOf Params.fresh freshNodeAddr freshBcast []

end Sys2Proof.Machine
end

