-- ==== Sys2Proof/Machine/Operands.lean ====
section
/-! DEFINITION. Every form an operand or a datagram field takes: the universe address's halves, the configuration byte, the
fields of DATA and ADDRESS, the effective length, addresses as bytes. -/

namespace Sys2Proof.Machine

/-- `ua[7:4]` (`30_encoding.md` rule R81). -/
def subnetOf (ua : Byte) : Nibble := ua.extractLsb' 4 4

/-- `ua[3:0]` (R81). -/
def universeOf (ua : Byte) : Nibble := ua.extractLsb' 0 4

/-- `subnet : universe` (R81). -/
def joinAddress (sub uni : Nibble) : Byte := sub ++ uni

/-- Bits 3..0 of an operand byte; the high nibble of a universe or subnet operand is discarded (`42_address_config.md` rules
R147, R148). -/
def lowNibble (b : Byte) : Nibble := b.extractLsb' 0 4

/-- What a configuration byte asks for (`30_encoding.md` rule R79). -/
inductive ConfigChange where
  | noChange
  | setTo (v : Nibble)
  deriving DecidableEq, Repr

/-- `cfg(c)` of R79, in the order the source states it: the sentinel 0x7F, then the apply bit, then the reserved class. -/
def decodeConfig (c : Byte) : ConfigChange :=
  if c = 0x7F then .noChange
  else if c.getLsbD 7 then .setTo (lowNibble c)
  else .noChange

/-- Clear bit 0 (`00_scope.md` rule R11). -/
def evenDown (n : Nat) : Nat := n - n % 2

/-- The effective DATA length from the wire length and `rawLen` (`41_data_decode_mergelock.md` rule R124): clamped to the slot
buffer, then to the payload bytes present, then down to an even number. -/
def effectiveLength (lw rawLen : Nat) : Nat := evenDown (min (min lw slotCap) (rawLen - dataHdrLen))

/-- The bytes DECODE's header test may read: at most the first 10, and none at or beyond `rawLen` (`20_memory.md` rule R60). -/
def State.header (s : State) : List Byte := s.raw.readBytes 0 (min headerLen s.rawLen)

/-- DATA offset 14, the universe-address byte (R76). -/
def State.dataUniverse (s : State) : Byte := s.raw.read 14

/-- DATA offsets 16..17, the wire length `Lw`, big-endian (R77). -/
def State.dataWireLength (s : State) : Nat := (joinBytes (s.raw.read 16) (s.raw.read 17)).toNat

/-- The effective length `L` of the datagram in `raw` (R77, R124). -/
def State.dataLength (s : State) : Nat := effectiveLength s.dataWireLength s.rawLen

/-- The first `len` payload bytes, from offset 18 (R76). -/
def State.dataPayload (s : State) (len : Nat) : List Byte := s.raw.readBytes dataHdrLen len

/-- The short-name field of an ADDRESS datagram (R78). -/
def State.addressShortName (s : State) : List Byte := s.raw.readBytes s.par.adShortName s.par.shortNameLen

/-- The long-name field of an ADDRESS datagram (R78). -/
def State.addressLongName (s : State) : List Byte := s.raw.readBytes s.par.adLongName s.par.longNameLen

/-- The universe configuration byte of an ADDRESS datagram (R78). -/
def State.addressUniverse (s : State) : Byte := s.raw.read s.par.adUniverse

/-- The subnet configuration byte of an ADDRESS datagram (R78). -/
def State.addressSubnet (s : State) : Byte := s.raw.read s.par.adSubnet

/-- The command byte of an ADDRESS datagram (R78). -/
def State.addressCommand (s : State) : Byte := s.raw.read s.par.adCommand

/-- A 16-bit field, high byte at the lower offset (`20_memory.md` rule R51). -/
def bigEndian (v : Half) : List Byte := [hiByte v, loByte v]

/-- A network address as it travels, most significant octet first (`30_encoding.md` rule R88). -/
def addrBytes (a : Addr) : List Byte := [a.extractLsb' 24 8, a.extractLsb' 16 8, a.extractLsb' 8 8, a.extractLsb' 0 8]

/-- The slots an index operand can select: 1..512 (`20_memory.md` rule R54). -/
abbrev SlotIndex (idx : Nat) : Prop := 1 ≤ idx ∧ idx ≤ slotCap

end Sys2Proof.Machine
end

