-- ==== Sys2Proof/Machine/Flags.lean ====
section
/-! DEFINITION. The block has no status flags (`10_state.md` rule R31). What it computes instead of one is the verdict on a
datagram: the return codes of DECODE and the anomaly that decides a DATA or ADDRESS arm (`60_exceptions.md` rules R211, R213). -/

namespace Sys2Proof.Machine

/-- NOP, DECODE's return code for what is no datagram of the protocol (`40_decode_dispatch.md` rule R109). -/
def codeNop : Half := 0x0000

/-- DECODE's return code for a POLL (R105). -/
def codePoll : Half := 0x2000

/-- DECODE's return code for a POLL_REPLY (R106). -/
def codePollReply : Half := 0x2100

/-- DECODE's return code for a DATA datagram, applied or not (R109). -/
def codeData : Half := 0x5000

/-- DECODE's return code for an ADDRESS datagram (R109). -/
def codeAddress : Half := 0x6000

/-- What becomes of a DATA datagram (`41_data_decode_mergelock.md` rule R120). -/
inductive DataVerdict where
  /-- Fewer than 18 bytes (R121). -/
  | malformed
  /-- Anomaly (b): another universe (R123). -/
  | wrongUniverse
  /-- Anomaly (c'): effective length 0 (R125). -/
  | empty
  /-- Anomaly (c): the lock is held by another address (R129). -/
  | lockedOut
  /-- Applied, with this effective length (R126). -/
  | accept (len : Nat)
  deriving DecidableEq, Repr

/-- The lock is held by an address other than the sender's; all 32 bits are compared (R129, R128). -/
def State.lockedOut (s : State) : Bool := s.lockValid && s.lockAddr != s.rxSrc

/-- The tests of R120 in their fixed order (R132, `60_exceptions.md` rule R213). -/
def State.dataVerdict (s : State) : DataVerdict :=
  if s.rawLen < dataHdrLen then .malformed
  else if s.dataUniverse ≠ s.ua then .wrongUniverse
  else if s.dataLength = 0 then .empty
  else if s.lockedOut then .lockedOut
  else .accept s.dataLength

/-- The status byte of a reply (`44_poll_reply_encode.md` rule R172). -/
def State.lockStatus (s : State) : Byte := if s.lockValid then s.par.prStatusLocked else s.par.prStatusUnlocked

end Sys2Proof.Machine
end

