-- ==== Sys2Proof/Machine/Ops.lean ====
section
/-! DEFINITION. The named operations the meanings share. The block takes no exception and returns from none (`60_exceptions.md`
rules R210, R214, R215); the operation that stands in that place is reset (`70_reset_and_hazards.md` rule R230). -/

namespace Sys2Proof.Machine

/-- Drive the result port (`30_encoding.md` rule R84): `ret`, and `tx_dest` and the READ_SLOTS bytes where the command defines
them. A result a command does not define is 0x0000, or not driven (log 3). -/
def State.respond (s : State) (ret : Half) (txDest : Option Addr := none) (slotsOut : Option (List Byte) := none) : State :=
  { s with ret := ret, txDest := txDest, slotsOut := slotsOut }

/-- Read a slot by its index; an index that selects none reads as 0 (`45_slot_buffer_ops.md` rule R193). -/
def State.readSlot (s : State) (idx : Nat) : Byte := if SlotIndex idx then s.slots.read idx else 0x00

/-- Write a slot by its index; an index that selects none does nothing (R192). -/
def State.writeSlot (s : State) (idx : Nat) (v : Byte) : State :=
  if SlotIndex idx then { s with slots := s.slots.write idx v } else s

/-- Set the count of meaningful slots. -/
def State.setActive (s : State) (n : BitVec 10) : State := { s with activeSlots := n }

/-- Copy a payload into the slots from slot 1 up; the slots beyond it stay as they are (`41_data_decode_mergelock.md` rules R126,
R131). -/
def State.copyPayload (s : State) (payload : List Byte) : State := { s with slots := s.slots.writeBytes 1 payload }

/-- Set the merge lock to the sender of the datagram last loaded (R128). -/
def State.takeLock (s : State) : State := { s with lockValid := true, lockAddr := s.rxSrc }

/-- Clear the merge lock; `lockAddr` stays (`42_address_config.md` rule R144). -/
def State.releaseLock (s : State) : State := { s with lockValid := false }

/-- Write the whole UniverseAddress. -/
def State.setAddress (s : State) (ua : Byte) : State := { s with ua := ua }

/-- `ApplyUniverse(c)` (R153). -/
def State.applyUniverse (s : State) (c : Byte) : State :=
  match decodeConfig c with
  | .noChange => s
  | .setTo v => s.setAddress (joinAddress (subnetOf s.ua) v)

/-- `ApplySubnet(c)` (R153). -/
def State.applySubnet (s : State) (c : Byte) : State :=
  match decodeConfig c with
  | .noChange => s
  | .setTo v => s.setAddress (joinAddress v (universeOf s.ua))

/-- Store the short name unless its first byte is 0x00 (R142). -/
def State.storeShortName (s : State) : State :=
  if s.raw.read s.par.adShortName ≠ 0x00 then { s with shortName := s.addressShortName } else s

/-- Store the long name unless its first byte is 0x00 (R142). -/
def State.storeLongName (s : State) : State :=
  if s.raw.read s.par.adLongName ≠ 0x00 then { s with longName := s.addressLongName } else s

/-- Release the lock if the command byte is 0x01; every other command byte has no effect (R144, R145). -/
def State.cancelMerge (s : State) : State := if s.addressCommand = 0x01 then s.releaseLock else s

/-- Step the sequence counter, mod 256 (`43_data_encode.md` rule R161). -/
def State.advanceSeq (s : State) : State := { s with seq := s.seq + 1 }

/-- Put a datagram into `raw`, its bytes from offset 0 up; the bytes beyond it go stale (`10_state.md` rule R32). -/
def State.putDatagram (s : State) (bytes : List Byte) : State :=
  { s with raw := s.raw.writeBytes 0 bytes, rawLen := bytes.length }

/-- Latch the source address of a received datagram (R28). -/
def State.latchSource (s : State) (src : Addr) : State := { s with rxSrc := src }

/-- The datagram now in `raw`, which the transport sends and a receiver reads: `raw[0..rawLen-1]` (R27). -/
def State.datagram (s : State) : List Byte := s.raw.readBytes 0 s.rawLen

/-- The fixed 18 bytes of a DATA datagram built now (R160, R76). -/
def State.dataFixedBytes (s : State) : List Byte :=
  headerBytes s.par (Datagram.opcode .data) ++ bigEndian s.par.protVer ++ [s.seq, 0x00, s.ua, 0x00] ++
    bigEndian (s.activeSlots.setWidth 16)

/-- The DATA datagram of the current slots (R160): the length field is `activeSlots` as it is, and that many bytes follow
(R162). -/
def State.dataDatagram (s : State) : List Byte := s.dataFixedBytes ++ s.slots.readBytes 1 s.activeSlots.toNat

/-- The stores of a reply in the order R170 writes them, as (offset, bytes); the first clears all 239 bytes (R176). -/
def State.replyParts (s : State) : List (Nat × List Byte) :=
  [(0, List.replicate pollReplyLen 0x00),
   (0, headerBytes s.par (Datagram.opcode .pollReply)),
   (s.par.prNodeAddr, addrBytes s.nodeAddr),
   (s.par.prPort, bigEndian s.par.nodePort),
   (s.par.prFirmware, bigEndian s.par.fwVersion),
   (s.par.prSubnet, [(subnetOf s.ua).setWidth 8]),
   (s.par.prShortName, s.shortName),
   (s.par.prLongName, s.longName),
   (s.par.prReport, s.par.nodeReport),
   (s.par.prStatus, [s.lockStatus]),
   (s.par.prUniverse, [(universeOf s.ua).setWidth 8])]

/-- Store byte strings at their offsets, one after another. -/
def storeParts (m : Memory) (parts : List (Nat × List Byte)) : Memory :=
  parts.foldl (fun acc part => acc.writeBytes part.1 part.2) m

/-- Put the discovery reply into `raw`: always 239 bytes (R170, R176). -/
def State.putReply (s : State) : State := { s with raw := storeParts s.raw s.replyParts, rawLen := pollReplyLen }

/-- Where a reply goes: the broadcast address if there is one, else the poll's sender (R171). -/
def State.replyDest (s : State) (pollSrc : Addr) : Addr := if s.bcastValid then s.bcastAddr else pollSrc

/-- The owner's next request and the state without it; `none` while no request waits (R245). -/
def State.takeRequest (s : State) : Option (Request × State) :=
  match s.port with
  | [] => none
  | r :: rest => some (r, { s with port := rest })

/-- The reset input between two commands (R230, R233): every element at its reset value, the identity from the construction
inputs; the parameters and the owner's later requests stay (log 9). -/
def State.applyReset (s : State) (nodeAddr : Addr) (bcast : Option Addr) : State :=
  State.resetOf s.par nodeAddr bcast s.port

/-- Let the owner issue a request before those already waiting. -/
def State.placeRequest (s : State) (r : Request) : State := { s with port := r :: s.port }

end Sys2Proof.Machine
end

