-- ==== Sys2Proof/Machine/AddressConfig.lean ====
section
/-! DEFINITION. The ADDRESS arm of DECODE and the owner's commands on the UniverseAddress (`42_address_config.md`). -/

namespace Sys2Proof.Machine

/-- What an ADDRESS datagram of full length does, in the order of R140. -/
def State.configure (s : State) : State :=
  let named := s.storeShortName.storeLongName
  ((named.applyUniverse named.addressUniverse).applySubnet named.addressSubnet).cancelMerge

/-- DecodeAddress (R140): shorter than the minimum is malformed (R141), else configured whoever sent it, 0x6000 (R146). -/
def execDgAddress (s : State) : Host.Outcome State Fault Refusal :=
  if s.rawLen < s.par.addrMinLen then .next (s.respond codeNop)
  else .next (s.configure.respond codeAddress)

/-- SET_UNIVERSE (R147): replace the low nibble, keep the subnet. -/
def execSetUniverse (u : Byte) (s : State) : Host.Outcome State Fault Refusal :=
  .next ((s.setAddress (joinAddress (subnetOf s.ua) (lowNibble u))).respond codeNop)

/-- SET_SUBNET_UNIVERSE (R148): replace both nibbles. -/
def execSetSubnetUniverse (sub u : Byte) (s : State) : Host.Outcome State Fault Refusal :=
  .next ((s.setAddress (joinAddress (lowNibble sub) (lowNibble u))).respond codeNop)

/-- SET_UNIVERSE_ADDRESS (R149): the sentinel and apply-bit rule on the universe nibble. -/
def execSetUniverseAddress (c : Byte) (s : State) : Host.Outcome State Fault Refusal :=
  .next ((s.applyUniverse c).respond codeNop)

/-- SET_SUBNET_ADDRESS (R150): the same rule on the subnet nibble. -/
def execSetSubnetAddress (c : Byte) (s : State) : Host.Outcome State Fault Refusal :=
  .next ((s.applySubnet c).respond codeNop)

/-- GET_UNIVERSE (R151): the universe nibble, zero-extended. -/
def execGetUniverse (s : State) : Host.Outcome State Fault Refusal :=
  .next (s.respond ((universeOf s.ua).setWidth 16))

/-- GET_SUBNET_UNIVERSE (R152): the whole byte, zero-extended. -/
def execGetSubnetUniverse (s : State) : Host.Outcome State Fault Refusal :=
  .next (s.respond (s.ua.setWidth 16))

end Sys2Proof.Machine
end

