-- ==== Sys2Proof/Machine/DataDecode.lean ====
section
/-! DEFINITION. The DATA arm of DECODE: address matcher, effective length and merge-lock arbiter
(`41_data_decode_mergelock.md`). -/

namespace Sys2Proof.Machine

/-- The accept action (R126, R128): copy the payload, set the count, lock to the sender. -/
def State.acceptData (s : State) (len : Nat) : State :=
  ((s.copyPayload (s.dataPayload len)).setActive (BitVec.ofNat 10 len)).takeLock

/-- DecodeData (R120): 0x0000 for a malformed datagram, else 0x5000, whether it is applied or not. -/
def execDgData (s : State) : Host.Outcome State Fault Refusal :=
  match s.dataVerdict with
  | .malformed => .next (s.respond codeNop)
  | .wrongUniverse => .next (s.respond codeData)
  | .empty => .next (s.respond codeData)
  | .lockedOut => .next (s.respond codeData)
  | .accept len => .next ((s.acceptData len).respond codeData)

end Sys2Proof.Machine
end

