-- ==== Sys2Proof/Machine/Receive.lean ====
section
/-! DEFINITION. RXLOAD and the datagram arms POLL, POLL_REPLY and "other" (`40_decode_dispatch.md`). -/

namespace Sys2Proof.Machine

/-- RXLOAD (R100): the first `min(n, RAW_CAP)` bytes into `raw`, the length and the source latched. -/
def execRxload (src : Addr) (bytes : List Byte) (s : State) : Host.Outcome State Fault Refusal :=
  .next (((s.putDatagram (bytes.take s.par.rawCap)).latchSource src).respond codeNop)

/-- The POLL arm (R105): the code, no state change. -/
def execDgPoll (s : State) : Host.Outcome State Fault Refusal := .next (s.respond codePoll)

/-- The POLL_REPLY arm (R106): the code, no state change. -/
def execDgPollReply (s : State) : Host.Outcome State Fault Refusal := .next (s.respond codePollReply)

/-- Every other opcode (R107): NOP, no state change; the opcode's value is not returned. -/
def execDgOther (_op : Half) (s : State) : Host.Outcome State Fault Refusal := .next (s.respond codeNop)

end Sys2Proof.Machine
end

