-- ==== Sys2Proof/Machine/DecodeCommand.lean ====
section
/-! DEFINITION. DECODE: header validator and dispatch on the datagram's opcode (`40_decode_dispatch.md` rules R101 to R109). -/

namespace Sys2Proof.Machine

/-- Run the arm a kind of datagram selects (R104, `30_encoding.md` rule R74). -/
def runDatagram (d : Datagram) (s : State) : Host.Outcome State Fault Refusal :=
  match d with
  | .poll => execDgPoll s
  | .pollReply => execDgPollReply s
  | .data => execDgData s
  | .address => execDgAddress s
  | .other op => execDgOther op s

/-- DECODE (R101): a short or foreign header is NOP with no state change (R102, R103), any other datagram runs its arm. -/
def execDecode (s : State) : Host.Outcome State Fault Refusal :=
  match decodeDatagram s.par s.header with
  | .error _ => .next (s.respond codeNop)
  | .ok d => runDatagram d s

end Sys2Proof.Machine
end

