-- ==== Sys2Proof/Machine/Encode.lean ====
section
/-! DEFINITION. The two encode commands, ENC_DATA (`43_data_encode.md`) and ENC_POLL_REPLY (`44_poll_reply_encode.md`). -/

namespace Sys2Proof.Machine

/-- ENC_DATA (R160): the DATA datagram of the current slots into `raw`, the sequence counter stepped after its old value went
out (R161), the caller's target passed through (R163). -/
def execEncData (dest : Addr) (s : State) : Host.Outcome State Fault Refusal :=
  .next ((s.putDatagram s.dataDatagram).advanceSeq.respond codeNop (txDest := some dest))

/-- ENC_POLL_REPLY (R170): the 239-byte reply into `raw`, its destination chosen by R171. -/
def execEncPollReply (pollSrc : Addr) (s : State) : Host.Outcome State Fault Refusal :=
  .next (s.putReply.respond codeNop (txDest := some (s.replyDest pollSrc)))

end Sys2Proof.Machine
end

