-- ==== Sys2Proof/Machine/SlotBuffer.lean ====
section
/-! DEFINITION. The owner's slot buffer commands and the reserved code (`45_slot_buffer_ops.md`). -/

namespace Sys2Proof.Machine

/-- SET_NUM_SLOTS (R190): a count in 1..512 is taken, any other ignored, never clamped. -/
def execSetNumSlots (n : Half) (s : State) : Host.Outcome State Fault Refusal :=
  if 1 ≤ n.toNat ∧ n.toNat ≤ slotCap then .next ((s.setActive (n.setWidth 10)).respond codeNop)
  else .next (s.respond codeNop)

/-- GET_NUM_SLOTS (R191): the count, zero-extended. -/
def execGetNumSlots (s : State) : Host.Outcome State Fault Refusal :=
  .next (s.respond (s.activeSlots.setWidth 16))

/-- SET_SLOT (R192): one slot by its index 1..512, whatever `activeSlots` and the lock are. -/
def execSetSlot (idx : Half) (v : Byte) (s : State) : Host.Outcome State Fault Refusal :=
  .next ((s.writeSlot idx.toNat v).respond codeNop)

/-- GET_SLOT (R193): one slot zero-extended, 0x0000 out of range. -/
def execGetSlot (idx : Half) (s : State) : Host.Outcome State Fault Refusal :=
  .next (s.respond ((s.readSlot idx.toNat).setWidth 16))

/-- READ_SLOTS (R194): all 512 slots in index order, stale ones included. -/
def execReadSlots (s : State) : Host.Outcome State Fault Refusal :=
  .next (s.respond codeNop (slotsOut := some (s.slots.readBytes 1 slotCap)))

/-- The reserved code 0xF (R195): no state change, no result. -/
def execReservedF (s : State) : Host.Outcome State Fault Refusal := .next (s.respond codeNop)

end Sys2Proof.Machine
end

