-- ==== Sys2Proof/Machine/Dispatch.lean ====
section
/-! DEFINITION. One arm per instruction, each one call of its meaning. -/

namespace Sys2Proof.Machine

def exec (i : Instr) (s : State) : Host.Outcome State Fault Refusal :=
  match i with
  | .rxload src bytes => Sys2Proof.Machine.execRxload src bytes s
  | .decode => Sys2Proof.Machine.execDecode s
  | .encData dest => Sys2Proof.Machine.execEncData dest s
  | .encPollReply pollSrc => Sys2Proof.Machine.execEncPollReply pollSrc s
  | .setUniverse u => Sys2Proof.Machine.execSetUniverse u s
  | .setSubnetUniverse sub u => Sys2Proof.Machine.execSetSubnetUniverse sub u s
  | .setUniverseAddress c => Sys2Proof.Machine.execSetUniverseAddress c s
  | .setSubnetAddress c => Sys2Proof.Machine.execSetSubnetAddress c s
  | .getUniverse => Sys2Proof.Machine.execGetUniverse s
  | .getSubnetUniverse => Sys2Proof.Machine.execGetSubnetUniverse s
  | .setNumSlots n => Sys2Proof.Machine.execSetNumSlots n s
  | .getNumSlots => Sys2Proof.Machine.execGetNumSlots s
  | .setSlot idx v => Sys2Proof.Machine.execSetSlot idx v s
  | .getSlot idx => Sys2Proof.Machine.execGetSlot idx s
  | .readSlots => Sys2Proof.Machine.execReadSlots s
  | .reservedF => Sys2Proof.Machine.execReservedF s
  | .dgPoll => Sys2Proof.Machine.execDgPoll s
  | .dgPollReply => Sys2Proof.Machine.execDgPollReply s
  | .dgData => Sys2Proof.Machine.execDgData s
  | .dgAddress => Sys2Proof.Machine.execDgAddress s
  | .dgOther op => Sys2Proof.Machine.execDgOther op s

end Sys2Proof.Machine
end

