-- ==== Sys2Proof/Machine/Step.lean ====
section
/-! DEFINITION. One step: the owner's next request, whole (`00_scope.md` rule R12, `70_reset_and_hazards.md` rule R245). -/

namespace Sys2Proof.Machine

/-- Serve the next request: a command runs as the instruction its transaction decodes to, a reset restores the reset state. With
no request waiting the block is idle and nothing changes (`10_state.md` rule R21; log 1). -/
def step (s : State) : Host.Outcome State Fault Refusal :=
  match s.takeRequest with
  | none => .next s
  | some (.reset nodeAddr bcast, s') => .next (s'.applyReset nodeAddr bcast)
  | some (.command t, s') => exec (decodeCommand t) s'

/-- `s` with the table's word where the next step fetches it (log 13): a command row is the next transaction on the port; a datagram
row is the datagram in `raw`, with DECODE, which runs it, the next transaction. -/
def State.withFetchWord (s : State) (nbits w : Nat) : State :=
  if isCommandRow nbits then s.placeRequest (.command (tableCommand w))
  else (s.putDatagram (tableDatagram s.par w)).placeRequest (.command (bareCommand 0x1))

end Sys2Proof.Machine
end

