-- ==== Sys2Proof/Machine/Owner.lean ====
section
/-! DEFINITION. The owner's side: the pseudo-operations of `30_encoding.md` rule R87 as requests, and what the environment can
observe (`70_reset_and_hazards.md` rule R246). -/

namespace Sys2Proof.Machine

/-- The request that issues a command, through its encoding (R84). -/
def issue (p : Params) (i : Instr) : List Request :=
  match encode p i with
  | .command t => [.command t]
  | .datagram _ => []

/-- `RECV src bytes` = RXLOAD, then DECODE (R87). -/
def recv (p : Params) (src : Addr) (bytes : List Byte) : List Request := issue p (.rxload src bytes) ++ issue p .decode

/-- `SEND_DATA dest`: ENC_DATA, after which the transport sends what `State.transmit` says (R87). -/
def sendData (p : Params) (dest : Addr) : List Request := issue p (.encData dest)

/-- `SEND_POLL_REPLY pollSrc`: ENC_POLL_REPLY, after which the transport sends what `State.transmit` says (R87). -/
def sendPollReply (p : Params) (pollSrc : Addr) : List Request := issue p (.encPollReply pollSrc)

/-- `GET_SUBNET`: GET_SUBNET_UNIVERSE; the owner then takes `subnetReply` of the result (R87). -/
def getSubnet (p : Params) : List Request := issue p .getSubnetUniverse

/-- `ret[7:4]` (R87). -/
def subnetReply (ret : Half) : Nibble := ret.extractLsb' 4 4

/-- The hand-over to the transport after an encode command (`20_memory.md` rule R58, `43_data_encode.md` rule R163): the datagram and
its destination. -/
def State.transmit (s : State) : Option (List Byte × Addr) := s.txDest.map fun dest => (s.datagram, dest)

/-- What the environment sees after a command (R246): `ret`; the datagram and `tx_dest` after an encode; the 512 bytes after
READ_SLOTS. -/
def State.observe (s : State) : Half × Option (List Byte × Addr) × Option (List Byte) := (s.ret, s.transmit, s.slotsOut)

end Sys2Proof.Machine
end

