-- ==== Sys2Proof/Safety.lean ====
section
/-! DEFINITION. The terms claims are stated in: the invariant of `10_state.md` rule R33, what a datagram in `raw` is, and when two
states look alike (`70_reset_and_hazards.md` rule R246). -/

namespace Sys2Proof.Machine

/-- The invariant (R33, with the parameter constraints of `00_scope.md` rule R8 and the canonical form of both memories). -/
structure State.Wf (s : State) : Prop where
  params      : s.par.Valid
  slotsForm   : s.slots.Canonical
  slotsRange  : s.slots.Within 1 513
  rawForm     : s.raw.Canonical
  rawRange    : s.raw.Within 0 s.par.rawCap
  activePos   : 1 ≤ s.activeSlots.toNat
  activeMax   : s.activeSlots.toNat ≤ 512
  rawLenMax   : s.rawLen ≤ s.par.rawCap
  shortLength : s.shortName.length = s.par.shortNameLen
  longLength  : s.longName.length = s.par.longNameLen
  noBcast     : s.bcastValid = false → s.bcastAddr = 0

/-- `s` with the result port showing `ret` alone, everything else as it is: what a command leaves that changes no state. -/
def State.showing (s : State) (ret : Half) : State := { s with ret := ret, txDest := none, slotsOut := none }

/-- `raw` holds a datagram with a valid header and this opcode (`30_encoding.md` rules R72, R73). -/
abbrev State.Holds (s : State) (op : Half) : Prop :=
  10 ≤ s.rawLen ∧ s.raw.readBytes 0 8 = s.par.magic ∧ (s.raw.read 8).toNat + 256 * (s.raw.read 9).toNat = op.toNat

/-- The effective length of a DATA datagram in `raw` (`30_encoding.md` rule R77, the spec's decision D11): the wire length cut to
512 and to the payload bytes present, then down to an even number. -/
def State.payloadCount (s : State) : Nat :=
  2 * (min (256 * (s.raw.read 16).toNat + (s.raw.read 17).toNat) (min 512 (s.rawLen - 18)) / 2)

/-- The DATA datagram in `raw` gets as far as the lock test of `41_data_decode_mergelock.md` rule R120. -/
abbrev State.ReachesArbiter (s : State) : Prop := 18 ≤ s.rawLen ∧ s.raw.read 14 = s.ua ∧ s.payloadCount ≠ 0

/-- The merge lock keeps the sender of the datagram in `raw` out (R129). -/
abbrev State.LockedAgainst (s : State) : Prop := s.lockValid = true ∧ s.lockAddr ≠ s.rxSrc

/-- `raw` holds a cancel-merge ADDRESS datagram (`42_address_config.md` rule R144). -/
abbrev State.HoldsCancel (s : State) : Prop :=
  s.Holds 0x6000 ∧ s.par.addrMinLen ≤ s.rawLen ∧ s.raw.read s.par.adCommand = 0x01

/-- The states agree on everything R246 lists: no command can tell them apart. `lockAddr` counts only while the lock is held,
`raw` only below `rawLen`; the parameters and the owner's requests are the same. -/
structure State.Alike (s t : State) : Prop where
  slots       : s.slots = t.slots
  activeSlots : s.activeSlots = t.activeSlots
  ua          : s.ua = t.ua
  seq         : s.seq = t.seq
  lockValid   : s.lockValid = t.lockValid
  lockAddr    : s.lockValid = true → s.lockAddr = t.lockAddr
  rxSrc       : s.rxSrc = t.rxSrc
  rawLen      : s.rawLen = t.rawLen
  raw         : ∀ k, k < s.rawLen → s.raw.read k = t.raw.read k
  shortName   : s.shortName = t.shortName
  longName    : s.longName = t.longName
  nodeAddr    : s.nodeAddr = t.nodeAddr
  bcastValid  : s.bcastValid = t.bcastValid
  bcastAddr   : s.bcastAddr = t.bcastAddr
  par         : s.par = t.par
  port        : s.port = t.port

end Sys2Proof.Machine
end

