-- ==== Sys2Proof/Certificates/Slice0/Obligations.lean ====
section
/-! DEFINITION. The statements for the provers. Each says what an instruction or the machine does, from the numbered rules of
`spec/`; a docstring names the rule, and says so where a clause rests on a decision of the spec or of the model. -/

open Sys2Proof Sys2Proof.Machine

/-- R12, R245 and log 1: a step serves the owner's next request whole. A command runs as the instruction its transaction decodes
to, on the state without that request; a reset gives the reset state; with no request waiting nothing changes. -/
def Obligations.StepServesOwnerRequests : Prop :=
  (∀ s t rest, s.port = .command t :: rest → step s = exec (decodeCommand t) { s with port := rest }) ∧
  (∀ s nodeAddr bcast rest, s.port = .reset nodeAddr bcast :: rest →
    step s = .next (State.resetOf s.par nodeAddr bcast rest)) ∧
  (∀ s, s.port = [] → step s = .next s)

/-- R84 and R74 on a few words of `95_test_vectors.md`: V-C9, V-C12, V-S7, V-S8, P2 step 9, and the headers of V-H8, V-D1 and
V-H14. -/
def Obligations.SampleWordsDecodeAsEncoded : Prop :=
  decodeCommand ⟨0x4, 0x0007, 0, 0, []⟩ = .setUniverse 7 ∧
  decodeCommand ⟨0x5, 0x030A, 0, 0, []⟩ = .setSubnetUniverse 3 10 ∧
  decodeCommand ⟨0xC, 0x0003, 0xFF, 0, []⟩ = .setSlot 3 0xFF ∧
  decodeCommand ⟨0xD, 0x0200, 0, 0, []⟩ = .getSlot 512 ∧
  decodeCommand ⟨0x2, 0, 0, 0x0A0000FF, []⟩ = .encData 0x0A0000FF ∧
  decodeDatagram Params.fresh [0x41, 0x72, 0x74, 0x2D, 0x4E, 0x65, 0x74, 0x00, 0x00, 0x20, 0x00, 0x0E] = .ok .poll ∧
  decodeDatagram Params.fresh [0x41, 0x72, 0x74, 0x2D, 0x4E, 0x65, 0x74, 0x00, 0x00, 0x50, 0x00, 0x0E] = .ok .data ∧
  decodeDatagram Params.fresh [0x41, 0x72, 0x74, 0x2D, 0x4E, 0x65, 0x74, 0x00, 0x00, 0x97] = .ok (.other 0x9700)

/-- R71, R73, R74, R84: decoding the encoding of a well-formed instruction gives it back, for every instruction, every operand
value and every magic. -/
def Obligations.DecodeUndoesEncode : Prop :=
  ∀ (p : Params) (i : Instr), i.wellFormed = true → decodeWire p (encode p i) = .ok i

/-- R84 and R74: the code of a transaction and the opcode of a datagram can be read off the decoded instruction, so no two codes
and no two opcodes share one; and what a datagram decodes to starts with the whole magic and is at least 10 bytes long. -/
def Obligations.NoTwoOpcodesShareAnInstruction : Prop :=
  (∀ t u, decodeCommand t = decodeCommand u → t.cmd = u.cmd) ∧
  (∀ p b c d, decodeDatagram p b = .ok d → decodeDatagram p c = .ok d →
    10 ≤ b.length ∧ b.take 8 = p.magic ∧ b.take 10 = c.take 10)

/-- R34 and R230 (the values marked D25 there are the spec's decision): a reset request puts every element at its reset value,
whatever the state was, and the identity comes from the construction inputs. -/
def Obligations.ResetRestoresEveryElement : Prop :=
  ∀ s nodeAddr bcast rest, s.port = .reset nodeAddr bcast :: rest →
    ∃ t, step s = .next t ∧
      t.lockValid = false ∧ t.lockAddr = 0 ∧ t.seq = s.par.seqInit ∧ t.ua = s.par.uaInit ∧ t.activeSlots = s.par.slotsInit ∧
      (∀ i, t.slots.read i = 0) ∧ t.rawLen = 0 ∧ t.rxSrc = 0 ∧ t.nodeAddr = nodeAddr ∧
      (∀ a, bcast = some a → t.bcastValid = true ∧ t.bcastAddr = a) ∧
      (bcast = none → t.bcastValid = false ∧ t.bcastAddr = 0) ∧
      t.shortName = s.par.shortNameInit ∧ t.longName = s.par.longNameInit ∧ t.par = s.par ∧ t.port = rest

/-- The invariant of R33 holds at reset, for all parameters that meet their constraints and all construction inputs, and the
defaults meet them. -/
def Obligations.ResetMeetsInvariant : Prop :=
  State.reset.Wf ∧ ∀ p nodeAddr bcast port, p.Valid → (State.resetOf p nodeAddr bcast port).Wf

/-- R33: from every state that meets the invariant every step, a reset or a command or idling, gives a state that meets it; the
parameters never change, and the node identity changes only to a reset's construction inputs. -/
def Obligations.StepKeepsInvariant : Prop :=
  ∀ s t, s.Wf → step s = .next t →
    t.Wf ∧ t.par = s.par ∧
    ((t.nodeAddr = s.nodeAddr ∧ t.bcastValid = s.bcastValid ∧ t.bcastAddr = s.bcastAddr) ∨
      ∃ nodeAddr bcast rest, s.port = .reset nodeAddr bcast :: rest ∧
        t.nodeAddr = nodeAddr ∧ t.bcastValid = bcast.isSome ∧ t.bcastAddr = bcast.getD 0)

/-- R210: no command faults or stops; each has a successor, which again meets the invariant. -/
def Obligations.EveryInstructionCompletes : Prop :=
  ∀ i s, s.Wf → ∃ t, exec i s = .next t ∧ t.Wf

/-- R36, R216 and the "Writes" line of each command: what each instruction leaves alone. An element not named for an instruction
is unchanged when it answers; no instruction changes the node identity, the parameters or the owner's requests. Every byte of
both memories is covered: the slots change in DECODE, DG_DATA and SET_SLOT only, `raw` in RXLOAD and the encodes only. -/
def Obligations.FrameOfEveryInstruction : Prop :=
  ∀ i s t, exec i s = .next t →
    t.nodeAddr = s.nodeAddr ∧ t.bcastValid = s.bcastValid ∧ t.bcastAddr = s.bcastAddr ∧ t.par = s.par ∧ t.port = s.port ∧
    (i ≠ .decode → i ≠ .dgData → (∀ idx v, i ≠ .setSlot idx v) → t.slots = s.slots) ∧
    (i ≠ .decode → i ≠ .dgData → (∀ n, i ≠ .setNumSlots n) → t.activeSlots = s.activeSlots) ∧
    (i ≠ .decode → i ≠ .dgAddress → (∀ u, i ≠ .setUniverse u) → (∀ sub u, i ≠ .setSubnetUniverse sub u) →
      (∀ c, i ≠ .setUniverseAddress c) → (∀ c, i ≠ .setSubnetAddress c) → t.ua = s.ua) ∧
    (i ≠ .decode → i ≠ .dgData → i ≠ .dgAddress → t.lockValid = s.lockValid ∧ t.lockAddr = s.lockAddr) ∧
    (i ≠ .decode → i ≠ .dgAddress → t.shortName = s.shortName ∧ t.longName = s.longName) ∧
    ((∀ dest, i ≠ .encData dest) → t.seq = s.seq) ∧
    ((∀ dest, i ≠ .encData dest) → (∀ src, i ≠ .encPollReply src) → (∀ src bytes, i ≠ .rxload src bytes) →
      t.raw = s.raw ∧ t.rawLen = s.rawLen) ∧
    ((∀ src bytes, i ≠ .rxload src bytes) → t.rxSrc = s.rxSrc)

/-- R216's table: the reach of the owner and of the network. Slots: SET_SLOT, or an accepted DATA for the right universe from a
sender free to take or holding the lock, and then only up to the new count. Count: SET_NUM_SLOTS to 1..512, or DATA to an even
number in 2..512. Lock and names: DECODE (or its arms) alone. Sequence: ENC_DATA alone. Identity: nothing. The even count and the
bytes that count as DATA or ADDRESS rest on the spec's decisions D11 and D14 (logs 17, 18). -/
def Obligations.OwnerAndNetworkReach : Prop :=
  ∀ i s t, s.Wf → exec i s = .next t →
    (t.slots ≠ s.slots → (∃ idx v, i = .setSlot idx v) ∨
      ((i = .decode ∧ s.Holds 0x5000 ∨ i = .dgData) ∧ s.raw.read 14 = s.ua ∧ ¬s.LockedAgainst ∧
        ∀ j, t.activeSlots.toNat < j → t.slots.read j = s.slots.read j)) ∧
    (t.activeSlots ≠ s.activeSlots →
      (∃ n, i = .setNumSlots n ∧ 1 ≤ n.toNat ∧ n.toNat ≤ 512 ∧ t.activeSlots.toNat = n.toNat) ∨
      ((i = .decode ∧ s.Holds 0x5000 ∨ i = .dgData) ∧
        2 ≤ t.activeSlots.toNat ∧ t.activeSlots.toNat ≤ 512 ∧ t.activeSlots.toNat % 2 = 0)) ∧
    (t.ua ≠ s.ua → (∃ u, i = .setUniverse u) ∨ (∃ sub u, i = .setSubnetUniverse sub u) ∨ (∃ c, i = .setUniverseAddress c) ∨
      (∃ c, i = .setSubnetAddress c) ∨ (i = .decode ∧ s.Holds 0x6000) ∨ i = .dgAddress) ∧
    ((t.lockValid, t.lockAddr) ≠ (s.lockValid, s.lockAddr) →
      (i = .decode ∧ (s.Holds 0x5000 ∨ s.Holds 0x6000)) ∨ i = .dgData ∨ i = .dgAddress) ∧
    ((t.shortName, t.longName) ≠ (s.shortName, s.longName) → (i = .decode ∧ s.Holds 0x6000) ∨ i = .dgAddress) ∧
    (t.seq ≠ s.seq → ∃ dest, i = .encData dest) ∧
    (t.nodeAddr = s.nodeAddr ∧ t.bcastValid = s.bcastValid ∧ t.bcastAddr = s.bcastAddr)

/-- R59 (and R108, R140): reads have no side effect and every write but ENC_DATA's is idempotent. An instruction other than
ENC_DATA, issued again at the state it left, leaves that state and returns the same result. That DECODE does not consume the
buffer and so can be repeated is R108, the spec's decision D2 (log 21). -/
def Obligations.RepeatingAnyOtherCommandChangesNothing : Prop :=
  ∀ i s t, s.Wf → (∀ dest, i ≠ .encData dest) → exec i s = .next t → exec i t = .next t

/-- R100 (the spec's decision D2): RXLOAD stores the first `min(n, RAW_CAP)` bytes, latches length and source, leaves the bytes
beyond them and everything else. -/
def Obligations.RxloadStoresTheDatagram : Prop :=
  ∀ src bytes s, s.Wf → ∃ t, exec (.rxload src bytes) s = .next t ∧
    t = { s with raw := t.raw, rawLen := min bytes.length s.par.rawCap, rxSrc := src,
                 ret := 0x0000, txDest := none, slotsOut := none } ∧
    t.datagram = bytes.take s.par.rawCap ∧
    (∀ k, t.rawLen ≤ k → t.raw.read k = s.raw.read k)

/-- R102 and R103: fewer than 10 bytes, or any of the eight magic bytes different, and DECODE returns 0x0000 and changes no
state. -/
def Obligations.DecodeRejectsForeignBytes : Prop :=
  (∀ s, s.rawLen < 10 → exec .decode s = .next (s.showing 0x0000)) ∧
  (∀ s, 10 ≤ s.rawLen → (∃ k, k < 8 ∧ s.raw.read k ≠ s.par.magic.getD k 0) → exec .decode s = .next (s.showing 0x0000))

/-- R104: with a valid header DECODE takes the arm the 16-bit little-endian opcode selects. -/
def Obligations.DecodeTakesTheArmOfTheOpcode : Prop :=
  ∀ s op, s.Holds op →
    exec .decode s = exec (if op = 0x2000 then .dgPoll else if op = 0x2100 then .dgPollReply else if op = 0x5000 then .dgData
      else if op = 0x6000 then .dgAddress else .dgOther op) s

/-- R105, R106, R107: the POLL, POLL_REPLY and "other" arms return their code and change no state. -/
def Obligations.PollReplyAndOtherArmsOnlyAnswer : Prop :=
  ∀ s,
    (exec .dgPoll s = .next (s.showing 0x2000) ∧ (s.Holds 0x2000 → exec .decode s = .next (s.showing 0x2000))) ∧
    (exec .dgPollReply s = .next (s.showing 0x2100) ∧ (s.Holds 0x2100 → exec .decode s = .next (s.showing 0x2100))) ∧
    (∀ op, exec (.dgOther op) s = .next (s.showing 0x0000) ∧
      (op ≠ 0x2000 → op ≠ 0x2100 → op ≠ 0x5000 → op ≠ 0x6000 → s.Holds op → exec .decode s = .next (s.showing 0x0000)))

/-- R109: DECODE's return codes are exactly five; 0x5000 for every DATA of at least 18 bytes and for nothing else, 0x6000 for
every ADDRESS of the minimum length and for nothing else. That a DATA below 18 bytes does not return 0x5000 is R121, the spec's
decision D10 (log 17); the minimum length of an ADDRESS and its return code are R141 and R146, the decisions D14 and D16
(log 18). -/
def Obligations.DecodeReturnCodes : Prop :=
  ∀ s t, exec .decode s = .next t →
    (t.ret = 0x0000 ∨ t.ret = 0x2000 ∨ t.ret = 0x2100 ∨ t.ret = 0x5000 ∨ t.ret = 0x6000) ∧
    (t.ret = 0x2000 ↔ s.Holds 0x2000) ∧ (t.ret = 0x2100 ↔ s.Holds 0x2100) ∧
    (t.ret = 0x5000 ↔ s.Holds 0x5000 ∧ 18 ≤ s.rawLen) ∧
    (t.ret = 0x6000 ↔ s.Holds 0x6000 ∧ s.par.addrMinLen ≤ s.rawLen)

/-- R121 and R125 (the spec's decisions D10 and D12): a DATA datagram shorter than 18 bytes returns 0x0000, one of effective
length 0 (by D11) returns 0x5000; neither changes any state. -/
def Obligations.ShortOrEmptyDataIsNotApplied : Prop :=
  ∀ s,
    (s.rawLen < 18 → exec .dgData s = .next (s.showing 0x0000) ∧
      (s.Holds 0x5000 → exec .decode s = .next (s.showing 0x0000))) ∧
    (18 ≤ s.rawLen → s.payloadCount = 0 → exec .dgData s = .next (s.showing 0x5000) ∧
      (s.Holds 0x5000 → exec .decode s = .next (s.showing 0x5000)))

/-- R123: a DATA datagram whose universe byte differs from `ua` in any bit returns 0x5000 and changes no state. -/
def Obligations.WrongUniverseIsDiscarded : Prop :=
  ∀ s, 18 ≤ s.rawLen → s.raw.read 14 ≠ s.ua →
    exec .dgData s = .next (s.showing 0x5000) ∧ (s.Holds 0x5000 → exec .decode s = .next (s.showing 0x5000))

/-- R129: while the lock is held by another address a DATA datagram returns 0x5000 and changes no state. -/
def Obligations.LockedOutDataIsDiscarded : Prop :=
  ∀ s, 18 ≤ s.rawLen → s.lockValid = true → s.rxSrc ≠ s.lockAddr →
    exec .dgData s = .next (s.showing 0x5000) ∧ (s.Holds 0x5000 → exec .decode s = .next (s.showing 0x5000))

/-- R126, R128, R131 with the effective length of R124 (the spec's decision D11): an admitted DATA datagram is copied, payload byte
0 to slot 1, up to the effective length; the slots beyond keep their bytes, the count is the effective length, the lock goes to
the sender, nothing else changes. -/
def Obligations.AcceptedDataIsCopiedAndLocks : Prop :=
  ∀ s, s.Wf → s.ReachesArbiter → ¬s.LockedAgainst →
    ∃ t, exec .dgData s = .next t ∧ (s.Holds 0x5000 → exec .decode s = .next t) ∧
      (∀ j, 1 ≤ j → j ≤ s.payloadCount → t.slots.read j = s.raw.read (17 + j)) ∧
      (∀ j, j = 0 ∨ s.payloadCount < j → t.slots.read j = s.slots.read j) ∧
      t.activeSlots.toNat = s.payloadCount ∧
      t = { s with slots := t.slots, activeSlots := t.activeSlots, lockValid := true, lockAddr := s.rxSrc,
                   ret := 0x5000, txDest := none, slotsOut := none }

/-- R131: whatever a DATA datagram does, the slots beyond the count it leaves are exactly what they were. -/
def Obligations.SlotsBeyondTheCountStayStale : Prop :=
  ∀ s t, exec .dgData s = .next t → ∀ j, t.activeSlots.toNat < j → t.slots.read j = s.slots.read j

/-- R124 (the spec's decision D11): the effective length of the model is even, at most 512, at most the wire length and at most the
payload bytes present, and no larger even number is. -/
def Obligations.EffectiveLengthIsTheGreatestEvenFit : Prop :=
  ∀ lw rawLen n, n = effectiveLength lw rawLen →
    (n % 2 = 0 ∧ n ≤ 512 ∧ n ≤ lw ∧ n ≤ rawLen - 18) ∧
    ∀ m, m % 2 = 0 → m ≤ 512 → m ≤ lw → m ≤ rawLen - 18 → m ≤ n

/-- R127: the arbiter's table. DATA that reaches the lock test is accepted while unlocked or from the holder, and then the lock is
the sender's; from another sender it is discarded; a cancel merge unlocks and leaves the slots; a reset unlocks and puts the slots
at their reset value; nothing else is an input: not DATA that does not reach the lock test, no other datagram and no other
command. The slots' reset value is the spec's decision D25 (log 7), that a reset is a request of the owner the model's choice
(log 9), the effective length in the accepted count and payload the decision D11 and its minimum length D10 (log 17), the layout
of a cancel merge the decision D14 (log 18). A DATA datagram below 18 bytes is the subject of
`Obligations.ShortOrEmptyDataIsNotApplied`. -/
def Obligations.ArbiterFollowsItsTable : Prop :=
  (∀ s, s.Wf → s.ReachesArbiter → (s.lockValid = false ∨ s.lockValid = true ∧ s.lockAddr = s.rxSrc) →
    ∃ t, exec .dgData s = .next t ∧ t.ret = 0x5000 ∧ t.lockValid = true ∧ t.lockAddr = s.rxSrc ∧
      t.activeSlots.toNat = s.payloadCount ∧ t.slots.readBytes 1 s.payloadCount = s.raw.readBytes 18 s.payloadCount) ∧
  (∀ s, s.ReachesArbiter → s.lockValid = true → s.lockAddr ≠ s.rxSrc →
    ∃ t, exec .dgData s = .next t ∧ t.ret = 0x5000 ∧ t.lockValid = true ∧ t.lockAddr = s.lockAddr ∧ t.slots = s.slots) ∧
  (∀ s, 18 ≤ s.rawLen → ¬s.ReachesArbiter →
    ∃ t, exec .dgData s = .next t ∧ t.lockValid = s.lockValid ∧ t.lockAddr = s.lockAddr ∧ t.slots = s.slots) ∧
  (∀ s, s.HoldsCancel → ∃ t, exec .decode s = .next t ∧ t.lockValid = false ∧ t.slots = s.slots) ∧
  (∀ s nodeAddr bcast rest, s.port = .reset nodeAddr bcast :: rest →
    ∃ t, step s = .next t ∧ t.lockValid = false ∧ ∀ i, t.slots.read i = 0) ∧
  (∀ s t, exec .decode s = .next t → ¬s.Holds 0x5000 → ¬s.HoldsCancel →
    t.lockValid = s.lockValid ∧ t.lockAddr = s.lockAddr) ∧
  (∀ i s t, exec i s = .next t → i ≠ .decode → i ≠ .dgData → i ≠ .dgAddress →
    t.lockValid = s.lockValid ∧ t.lockAddr = s.lockAddr)

/-- R130 with R128: in one step of the machine the lock is released only by a reset or by DECODE of a cancel-merge ADDRESS
datagram; it is taken only by DECODE of a DATA datagram that reaches the arbiter, and then for its sender; while held it never
passes to another address. Which DATA reaches the arbiter rests on the spec's decisions D10 to D12 (log 17), the layout of a cancel
merge on D14 (log 18), the reset request on log 9. -/
def Obligations.LockMovesOnlyByItsInputs : Prop :=
  ∀ s t, step s = .next t →
    (s.lockValid = true → t.lockValid = false →
      (∃ nodeAddr bcast rest, s.port = .reset nodeAddr bcast :: rest) ∨
      (∃ c rest, s.port = .command c :: rest ∧ decodeCommand c = .decode ∧ s.HoldsCancel)) ∧
    (s.lockValid = false → t.lockValid = true →
      t.lockAddr = s.rxSrc ∧
      ∃ c rest, s.port = .command c :: rest ∧ decodeCommand c = .decode ∧ s.Holds 0x5000 ∧ s.ReachesArbiter) ∧
    (s.lockValid = true → t.lockValid = true → t.lockAddr = s.lockAddr)

/-- R87, R129, R130 (D0 section 3): while the lock is held, whatever bytes another sender gets received and decoded, no slot and
not the count changes, and the lock stays with its holder unless the bytes are a cancel-merge ADDRESS datagram. Receiving as two
commands is the spec's decision D2 (log 21), the layout of a cancel merge its decision D14 (log 18). -/
def Obligations.ForeignSenderCannotChangeSlots : Prop :=
  ∀ s src bytes rest, s.Wf → s.lockValid = true → src ≠ s.lockAddr → s.port = recv s.par src bytes ++ rest →
    ∃ t, Host.Core.run Sys2Proof.core 2 s = .next t ∧ t.slots = s.slots ∧ t.activeSlots = s.activeSlots ∧ t.port = rest ∧
      (t.lockValid = true ∧ t.lockAddr = s.lockAddr ∨ t.lockValid = false ∧ t.HoldsCancel)

/-- R130 and R144 (D0 section 8): after a decoded cancel merge, a DATA datagram from any sender that reaches the arbiter is
applied and locks to that sender. The count and the payload are those of R126 with the effective length of R124, the spec's
decision D11 (log 17); the layout of a cancel merge is its decision D14 (log 18). -/
def Obligations.CancelMergeLetsTheNextSenderIn : Prop :=
  ∀ s t u src bytes, s.Wf → s.HoldsCancel → exec .decode s = .next t → exec (.rxload src bytes) t = .next u →
    u.Holds 0x5000 → u.ReachesArbiter →
    ∃ v, exec .decode u = .next v ∧ v.ret = 0x5000 ∧ v.lockValid = true ∧ v.lockAddr = src ∧
      v.activeSlots.toNat = u.payloadCount ∧ v.slots.readBytes 1 u.payloadCount = u.raw.readBytes 18 u.payloadCount

/-- R140 to R146 (the field offsets are parameters; R141 rests on the spec's decision D14, R142 on D15, R145 on D17): an ADDRESS
datagram of full length stores each name whose first byte is not 0x00, sets each nibble whose configuration byte has bit 7,
unlocks on command 0x01, returns 0x6000 and changes nothing else, whoever sent it. -/
def Obligations.AddressConfiguresTheNode : Prop :=
  ∀ s, s.par.addrMinLen ≤ s.rawLen →
    ∃ t, exec .dgAddress s = .next t ∧ (s.Holds 0x6000 → exec .decode s = .next t) ∧
      t.shortName = (if s.raw.read s.par.adShortName = 0x00 then s.shortName
        else s.raw.readBytes s.par.adShortName s.par.shortNameLen) ∧
      t.longName = (if s.raw.read s.par.adLongName = 0x00 then s.longName
        else s.raw.readBytes s.par.adLongName s.par.longNameLen) ∧
      t.ua.toNat % 16 = (if 128 ≤ (s.raw.read s.par.adUniverse).toNat then (s.raw.read s.par.adUniverse).toNat % 16
        else s.ua.toNat % 16) ∧
      t.ua.toNat / 16 = (if 128 ≤ (s.raw.read s.par.adSubnet).toNat then (s.raw.read s.par.adSubnet).toNat % 16
        else s.ua.toNat / 16) ∧
      (t.lockValid = true ↔ s.lockValid = true ∧ s.raw.read s.par.adCommand ≠ 0x01) ∧
      t = { s with shortName := t.shortName, longName := t.longName, ua := t.ua, lockValid := t.lockValid,
                   ret := 0x6000, txDest := none, slotsOut := none }

/-- R141 (the spec's decision D14): an ADDRESS datagram below the minimum length returns 0x0000 and changes no state. -/
def Obligations.ShortAddressIsNotApplied : Prop :=
  ∀ s, s.rawLen < s.par.addrMinLen →
    exec .dgAddress s = .next (s.showing 0x0000) ∧ (s.Holds 0x6000 → exec .decode s = .next (s.showing 0x0000))

/-- R144: command byte 0x01 clears the lock and leaves `lockAddr`, the slots and the count; an already clear lock stays clear. -/
def Obligations.CancelMergeClearsTheLock : Prop :=
  ∀ s, s.HoldsCancel →
    ∃ t, exec .decode s = .next t ∧ t.lockValid = false ∧ t.lockAddr = s.lockAddr ∧ t.slots = s.slots ∧
      t.activeSlots = s.activeSlots

/-- R143 (the offsets are parameters, D14): the two configuration bytes of an ADDRESS datagram do to `ua` what the owner's
SET_UNIVERSE_ADDRESS and SET_SUBNET_ADDRESS do with them, in either order. -/
def Obligations.WireConfigurationMatchesOwnerCommands : Prop :=
  ∀ s t u v w x, s.par.addrMinLen ≤ s.rawLen → exec .dgAddress s = .next t →
    exec (.setUniverseAddress (s.raw.read s.par.adUniverse)) s = .next u →
    exec (.setSubnetAddress (s.raw.read s.par.adSubnet)) u = .next v →
    exec (.setSubnetAddress (s.raw.read s.par.adSubnet)) s = .next w →
    exec (.setUniverseAddress (s.raw.read s.par.adUniverse)) w = .next x →
    t.ua = v.ua ∧ t.ua = x.ua

/-- R147 and R148 (operands above 15 are masked by the spec's decision D18): SET_UNIVERSE replaces the universe nibble,
SET_SUBNET_UNIVERSE both; nothing else changes. -/
def Obligations.SetUniverseReplacesNibbles : Prop :=
  (∀ u s, ∃ t, exec (.setUniverse u) s = .next t ∧ t.ua.toNat = 16 * (s.ua.toNat / 16) + u.toNat % 16 ∧
    t = { s with ua := t.ua, ret := 0x0000, txDest := none, slotsOut := none }) ∧
  (∀ sub u s, ∃ t, exec (.setSubnetUniverse sub u) s = .next t ∧ t.ua.toNat = 16 * (sub.toNat % 16) + u.toNat % 16 ∧
    t = { s with ua := t.ua, ret := 0x0000, txDest := none, slotsOut := none })

/-- R149: 0x7F changes nothing; with bit 7 set the low nibble becomes the universe and the subnet stays; any other operand is
ignored; nothing but `ua` changes. -/
def Obligations.SetUniverseAddressObeysTheApplyBit : Prop :=
  ∀ u s, ∃ t, exec (.setUniverseAddress u) s = .next t ∧
    t.ua.toNat = (if u.toNat < 128 then s.ua.toNat else 16 * (s.ua.toNat / 16) + u.toNat % 16) ∧
    t = { s with ua := t.ua, ret := 0x0000, txDest := none, slotsOut := none }

/-- R150: the same rule on the subnet nibble. -/
def Obligations.SetSubnetAddressObeysTheApplyBit : Prop :=
  ∀ c s, ∃ t, exec (.setSubnetAddress c) s = .next t ∧
    t.ua.toNat = (if c.toNat < 128 then s.ua.toNat else 16 * (c.toNat % 16) + s.ua.toNat % 16) ∧
    t = { s with ua := t.ua, ret := 0x0000, txDest := none, slotsOut := none }

/-- R151 and R152 (what the getters return is the spec's decision D19): the universe nibble and the whole byte, zero-extended; no
state changes. -/
def Obligations.AddressGettersReadTheNibbles : Prop :=
  ∀ s, ∃ r q, exec .getUniverse s = .next (s.showing r) ∧ r.toNat = s.ua.toNat % 16 ∧
    exec .getSubnetUniverse s = .next (s.showing q) ∧ q.toNat = s.ua.toNat

/-- R190: a count in 1..512 is taken, every other leaves the state as it is; no slot is written, the lock plays no part. -/
def Obligations.SetNumSlotsTakesOneTo512 : Prop :=
  ∀ n s,
    (1 ≤ n.toNat ∧ n.toNat ≤ 512 → ∃ t, exec (.setNumSlots n) s = .next t ∧ t.activeSlots.toNat = n.toNat ∧
      t = { s with activeSlots := t.activeSlots, ret := 0x0000, txDest := none, slotsOut := none }) ∧
    (n.toNat = 0 ∨ 512 < n.toNat → exec (.setNumSlots n) s = .next (s.showing 0x0000))

/-- R191: GET_NUM_SLOTS returns the count, always in 1..512, and changes no state; after a DATA datagram was accepted it is that
datagram's effective length (D11). -/
def Obligations.GetNumSlotsReturnsTheCount : Prop :=
  (∀ s, s.Wf → ∃ r, exec .getNumSlots s = .next (s.showing r) ∧ r.toNat = s.activeSlots.toNat ∧ 1 ≤ r.toNat ∧
    r.toNat ≤ 512) ∧
  (∀ s t, s.Wf → s.ReachesArbiter → ¬s.LockedAgainst → exec .dgData s = .next t →
    ∃ r, exec .getNumSlots t = .next (t.showing r) ∧ r.toNat = s.payloadCount)

/-- R192 (that the range is 1..512 whatever the count is the spec's decision D20): SET_SLOT writes the one slot an index in 1..512
names, and nothing for any other index. -/
def Obligations.SetSlotWritesOneSlot : Prop :=
  ∀ idx v s, s.Wf →
    (1 ≤ idx.toNat ∧ idx.toNat ≤ 512 → ∃ t, exec (.setSlot idx v) s = .next t ∧ t.slots.read idx.toNat = v ∧
      (∀ j, j ≠ idx.toNat → t.slots.read j = s.slots.read j) ∧
      t = { s with slots := t.slots, ret := 0x0000, txDest := none, slotsOut := none }) ∧
    (idx.toNat = 0 ∨ 512 < idx.toNat → exec (.setSlot idx v) s = .next (s.showing 0x0000))

/-- R193 (the range by D20): GET_SLOT returns the slot an index in 1..512 names, stale or not, and 0x0000 for any other index; no
state changes. -/
def Obligations.GetSlotReadsOneSlot : Prop :=
  ∀ idx s, ∃ r, exec (.getSlot idx) s = .next (s.showing r) ∧
    r.toNat = (if idx.toNat = 0 ∨ 512 < idx.toNat then 0 else (s.slots.read idx.toNat).toNat)

/-- R194 (D30): READ_SLOTS returns all 512 slots in index order and changes no state. -/
def Obligations.ReadSlotsReturnsAllSlots : Prop :=
  ∀ s, ∃ bytes, exec .readSlots s = .next { s with ret := 0x0000, txDest := none, slotsOut := some bytes } ∧
    bytes.length = 512 ∧ ∀ j, 1 ≤ j → j ≤ 512 → bytes.getD (j - 1) 0 = s.slots.read j

/-- R195 (D1): the reserved code changes no state and returns nothing, whatever the operands. -/
def Obligations.ReservedCodeDoesNothing : Prop :=
  (∀ s, exec .reservedF s = .next (s.showing 0x0000)) ∧
  (∀ s t rest, s.port = .command t :: rest → t.cmd = 0xF → step s = .next ({ s with port := rest }.showing 0x0000))

/-- R160 to R163: ENC_DATA's datagram byte by byte, its length, the counter's step, the destination passed through; stale bytes
and everything else stay. -/
def Obligations.EncDataBuildsTheDatagram : Prop :=
  ∀ dest s, s.Wf → ∃ t, exec (.encData dest) s = .next t ∧
    t = { s with raw := t.raw, rawLen := 18 + s.activeSlots.toNat, seq := s.seq + 1,
                 ret := 0x0000, txDest := some dest, slotsOut := none } ∧
    t.raw.readBytes 0 8 = s.par.magic ∧ t.raw.read 8 = 0x00 ∧ t.raw.read 9 = 0x50 ∧
    256 * (t.raw.read 10).toNat + (t.raw.read 11).toNat = s.par.protVer.toNat ∧
    t.raw.read 12 = s.seq ∧ t.raw.read 13 = 0x00 ∧ t.raw.read 14 = s.ua ∧ t.raw.read 15 = 0x00 ∧
    256 * (t.raw.read 16).toNat + (t.raw.read 17).toNat = s.activeSlots.toNat ∧
    (∀ j, 1 ≤ j → j ≤ s.activeSlots.toNat → t.raw.read (17 + j) = s.slots.read j) ∧
    (∀ k, 18 + s.activeSlots.toNat ≤ k → t.raw.read k = s.raw.read k)

/-- R161: byte 12 carries the counter before its step; the n-th ENC_DATA after a reset carries `SEQ_INIT + n - 1` mod 256; no
other command and no received datagram changes the counter. -/
def Obligations.SequenceCountsEncodedDatagrams : Prop :=
  (∀ i s t, exec i s = .next t →
    ((∀ dest, i ≠ .encData dest) → t.seq = s.seq) ∧
    (∀ dest, i = .encData dest → s.Wf → t.raw.read 12 = s.seq ∧ t.seq.toNat = (s.seq.toNat + 1) % 256)) ∧
  (∀ n s nodeAddr bcast dest rest, s.par.Valid → 1 ≤ n →
    s.port = .reset nodeAddr bcast :: (List.replicate n (sendData s.par dest)).flatten ++ rest →
    ∃ t, Host.Core.run Sys2Proof.core (n + 1) s = .next t ∧ t.port = rest ∧
      (t.raw.read 12).toNat = (s.par.seqInit.toNat + n - 1) % 256)

/-- R170 to R176 (the offsets are parameters, D22; zero padding is D22): ENC_POLL_REPLY's 239 bytes field by field; the bytes no
field covers are 0x00, the bytes beyond stay, nothing else changes. -/
def Obligations.EncPollReplyBuildsTheReply : Prop :=
  ∀ pollSrc s, s.Wf → ∃ t, exec (.encPollReply pollSrc) s = .next t ∧
    t = { s with raw := t.raw, rawLen := 239, ret := 0x0000, txDest := t.txDest, slotsOut := none } ∧
    t.raw.readBytes 0 8 = s.par.magic ∧ t.raw.read 8 = 0x00 ∧ t.raw.read 9 = 0x21 ∧
    t.raw.readBytes s.par.prNodeAddr 4 = [s.nodeAddr.extractLsb' 24 8, s.nodeAddr.extractLsb' 16 8,
      s.nodeAddr.extractLsb' 8 8, s.nodeAddr.extractLsb' 0 8] ∧
    t.raw.readBytes s.par.prPort 2 = [s.par.nodePort.extractLsb' 8 8, s.par.nodePort.extractLsb' 0 8] ∧
    t.raw.readBytes s.par.prFirmware 2 = [s.par.fwVersion.extractLsb' 8 8, s.par.fwVersion.extractLsb' 0 8] ∧
    (t.raw.read s.par.prSubnet).toNat = s.ua.toNat / 16 ∧ (t.raw.read s.par.prUniverse).toNat = s.ua.toNat % 16 ∧
    t.raw.readBytes s.par.prShortName s.par.shortNameLen = s.shortName ∧
    t.raw.readBytes s.par.prLongName s.par.longNameLen = s.longName ∧
    t.raw.readBytes s.par.prReport s.par.reportLen = s.par.nodeReport ∧
    t.raw.read s.par.prStatus = (if s.lockValid = true then s.par.prStatusLocked else s.par.prStatusUnlocked) ∧
    (∀ k, k < 239 → (∀ f ∈ s.par.replyFields, k < f.1 ∨ f.1 + f.2 ≤ k) → t.raw.read k = 0x00) ∧
    (∀ k, 239 ≤ k → t.raw.read k = s.raw.read k)

/-- R171: the reply goes to the broadcast address if the node has one, else to the poll's sender, passed through unchecked. -/
def Obligations.ReplyGoesToBroadcastOrSender : Prop :=
  ∀ pollSrc s t, exec (.encPollReply pollSrc) s = .next t →
    (s.bcastValid = true → t.txDest = some s.bcastAddr) ∧ (s.bcastValid = false → t.txDest = some pollSrc)

/-- R164 (which the spec derives from R160, R124 and R125): the datagram one engine encodes, received by an unlocked engine on the
same universe, gives it the even part of the slots: all of them for an even count, all but the last for an odd one, none for 1. -/
def Obligations.EncodedDataRoundTrips : Prop :=
  ∀ e f sent src dest rest, e.Wf → f.Wf → e.par.magicHead = f.par.magicHead → e.ua = f.ua → f.lockValid = false →
    exec (.encData dest) e = .next sent → f.port = recv f.par src sent.datagram ++ rest →
    ∃ t, Host.Core.run Sys2Proof.core 2 f = .next t ∧ t.ret = 0x5000 ∧
      (e.activeSlots.toNat = 1 → t.slots = f.slots ∧ t.activeSlots = f.activeSlots ∧ t.lockValid = false) ∧
      (2 ≤ e.activeSlots.toNat →
        t.activeSlots.toNat = 2 * (e.activeSlots.toNat / 2) ∧ t.lockValid = true ∧ t.lockAddr = src ∧
        (∀ j, 1 ≤ j → j ≤ 2 * (e.activeSlots.toNat / 2) → t.slots.read j = e.slots.read j) ∧
        (∀ j, 2 * (e.activeSlots.toNat / 2) < j → t.slots.read j = f.slots.read j))

/-- R57, R106 and R164's last case: DECODE right after an encode decodes the block's own output. A reply gives 0x2100; a DATA
datagram gives 0x5000 and leaves every slot as it was, and an unlocked engine with two slots or more locks to `rxSrc`. -/
def Obligations.DecodeReadsTheBlocksOwnOutput : Prop :=
  (∀ src s t, s.Wf → exec (.encPollReply src) s = .next t → exec .decode t = .next (t.showing 0x2100)) ∧
  (∀ dest s t, s.Wf → exec (.encData dest) s = .next t →
    ∃ u, exec .decode t = .next u ∧ u.ret = 0x5000 ∧ u.slots = s.slots ∧
      (s.lockValid = false → 2 ≤ s.activeSlots.toNat →
        u.lockValid = true ∧ u.lockAddr = s.rxSrc ∧ u.activeSlots.toNat = 2 * (s.activeSlots.toNat / 2)))

/-- R246 and R60 (the spec derives both): two states that differ only in stale raw bytes and in a free lock's address, and that
show the same results, cannot be told apart by any run of commands and resets; and after one request the results they show are
the same whatever they showed before. -/
def Obligations.HiddenStateIsUnobservable : Prop :=
  (∀ s t s' t', s.Wf → t.Wf → s.Alike t → s.port ≠ [] → step s = .next s' → step t = .next t' →
    s'.Alike t' ∧ s'.observe = t'.observe) ∧
  (∀ n s t s' t', s.Wf → t.Wf → s.Alike t → s.observe = t.observe →
    Host.Core.run Sys2Proof.core n s = .next s' → Host.Core.run Sys2Proof.core n t = .next t' →
    s'.Alike t' ∧ s'.observe = t'.observe)
end

