-- ==== Sys2Proof/Laws/Memory.lean ====
section
/-! SUPPORT. The laws of a byte memory: what a read after a write gives, that every operation keeps the canonical form, and that
canonical memories with the same reads are the same. -/

namespace Sys2Proof.Machine

@[simp] theorem Memory.read_nil (a : Nat) : Memory.read [] a = Memory.unlisted := rfl

theorem Memory.read_cons (k : Nat) (v : Byte) (m : Memory) (a : Nat) :
    Memory.read ((k, v) :: m) a = if k = a then v else Memory.read m a := rfl

theorem Memory.canonical_nil : Memory.Canonical [] := by simp [Memory.Canonical]

theorem Memory.canonical_cons {k : Nat} {v : Byte} {m : Memory} :
    Memory.Canonical ((k, v) :: m) ↔ (∀ c ∈ m, k < c.1) ∧ v ≠ Memory.unlisted ∧ Memory.Canonical m := by
  simp only [Memory.Canonical, List.pairwise_cons, List.mem_cons, forall_eq_or_imp]
  tauto

theorem Memory.wf_iff {m : Memory} : m.wf = true ↔ m.Canonical := by simp only [Memory.wf, decide_eq_true_eq]

/-- An address below every listed one reads as an unlisted address. -/
theorem Memory.read_below {m : Memory} {a : Nat} (h : ∀ c ∈ m, a < c.1) : m.read a = Memory.unlisted := by
  induction m with
  | nil => rfl
  | cons c m ih =>
    obtain ⟨k, v⟩ := c
    have hk : a < k := h (k, v) (by simp)
    rw [Memory.read_cons, if_neg (by omega)]
    exact ih fun d hd => h d (by simp [hd])

theorem Memory.read_write_other {m : Memory} {a b : Nat} {v : Byte} (h : b ≠ a) : (m.write a v).read b = m.read b := by
  induction m with
  | nil =>
    simp only [Memory.write]
    split
    · rfl
    · simp [Memory.read_cons, Ne.symm h]
  | cons c m ih =>
    obtain ⟨k, u⟩ := c
    simp only [Memory.write]
    split
    · split
      · rfl
      · rw [Memory.read_cons, if_neg (Ne.symm h)]
    · split
      · subst k
        split <;> simp [Memory.read_cons, Ne.symm h]
      · simp only [Memory.read_cons, ih]

theorem Memory.read_write_same {m : Memory} {a : Nat} {v : Byte} (hm : m.Canonical) : (m.write a v).read a = v := by
  induction m with
  | nil =>
    simp only [Memory.write]
    split
    · simp_all
    · simp [Memory.read_cons]
  | cons c m ih =>
    obtain ⟨k, u⟩ := c
    obtain ⟨hlt, hu, hm'⟩ := Memory.canonical_cons.mp hm
    simp only [Memory.write]
    split
    · next hak =>
      split
      · next hv =>
        rw [hv, Memory.read_cons, if_neg (by omega)]
        exact Memory.read_below fun d hd => by have := hlt d hd; omega
      · simp [Memory.read_cons]
    · split
      · subst k
        split
        · next hv => rw [hv]; exact Memory.read_below hlt
        · simp [Memory.read_cons]
      · next h1 h2 => rw [Memory.read_cons, if_neg (Ne.symm h2), ih hm']

/-- Every address listed after a write was listed before it or is the one written. -/
theorem Memory.mem_write {m : Memory} {a : Nat} {v : Byte} {c : Host.Cell} (h : c ∈ m.write a v) :
    c ∈ m ∨ c = (a, v) := by
  induction m with
  | nil =>
    simp only [Memory.write] at h
    split at h <;> simp_all
  | cons d m ih =>
    obtain ⟨k, u⟩ := d
    simp only [Memory.write] at h
    split at h
    · split at h
      · exact .inl h
      · simp only [List.mem_cons] at h ⊢
        tauto
    · split at h
      · split at h
        · exact .inl (by simp [h])
        · simp only [List.mem_cons] at h ⊢
          tauto
      · simp only [List.mem_cons] at h ⊢
        rcases h with h | h
        · exact .inl (.inl h)
        · rcases ih h with h | h
          · exact .inl (.inr h)
          · exact .inr h

theorem Memory.canonical_write {m : Memory} {a : Nat} {v : Byte} (hm : m.Canonical) : (m.write a v).Canonical := by
  induction m with
  | nil =>
    simp only [Memory.write]
    split
    · exact Memory.canonical_nil
    · next hv => exact Memory.canonical_cons.mpr ⟨by simp, hv, Memory.canonical_nil⟩
  | cons d m ih =>
    obtain ⟨k, u⟩ := d
    obtain ⟨hlt, hu, hm'⟩ := Memory.canonical_cons.mp hm
    simp only [Memory.write]
    split
    · next hak =>
      split
      · exact hm
      · next hv =>
        refine Memory.canonical_cons.mpr ⟨fun c hc => ?_, hv, hm⟩
        rcases List.mem_cons.mp hc with rfl | hc
        · exact hak
        · exact Nat.lt_trans hak (hlt c hc)
    · split
      · subst k
        split
        · exact hm'
        · next hv => exact Memory.canonical_cons.mpr ⟨hlt, hv, hm'⟩
      · next h1 h2 =>
        refine Memory.canonical_cons.mpr ⟨fun c hc => ?_, hu, ih hm'⟩
        rcases Memory.mem_write hc with hc | rfl
        · exact hlt c hc
        · show k < a
          omega

theorem Memory.within_write {m : Memory} {a lo hi : Nat} {v : Byte} (hm : m.Within lo hi) (ha : lo ≤ a) (hb : a < hi) :
    (m.write a v).Within lo hi := by
  intro c hc
  rcases Memory.mem_write hc with hc | rfl
  · exact hm c hc
  · exact ⟨ha, hb⟩

/-- Canonical memories that read alike everywhere are the same list. -/
theorem Memory.ext {m n : Memory} (hm : m.Canonical) (hn : n.Canonical) (h : ∀ a, m.read a = n.read a) : m = n := by
  induction m generalizing n with
  | nil =>
    cases n with
    | nil => rfl
    | cons d n =>
      obtain ⟨k, v⟩ := d
      have := h k
      simp only [Memory.read_nil, Memory.read_cons, if_true] at this
      exact absurd this.symm (Memory.canonical_cons.mp hn).2.1
  | cons c m ih =>
    obtain ⟨k, u⟩ := c
    obtain ⟨hlt, hu, hm'⟩ := Memory.canonical_cons.mp hm
    cases n with
    | nil =>
      have := h k
      simp only [Memory.read_nil, Memory.read_cons, if_true] at this
      exact absurd this hu
    | cons d n =>
      obtain ⟨l, v⟩ := d
      obtain ⟨hlt', hv, hn'⟩ := Memory.canonical_cons.mp hn
      have hkl : k = l := by
        rcases Nat.lt_trichotomy k l with hk | hk | hk
        · have := h k
          simp only [Memory.read_cons, if_true] at this
          rw [if_neg (by omega), Memory.read_below fun c hc => by have := hlt' c hc; omega] at this
          exact absurd this hu
        · exact hk
        · have := h l
          simp only [Memory.read_cons, if_true] at this
          rw [if_neg (by omega), Memory.read_below fun c hc => by have := hlt c hc; omega] at this
          exact absurd this.symm hv
      subst l
      have huv : u = v := by simpa [Memory.read_cons] using h k
      subst v
      have hmn : m = n := by
        refine ih hm' hn' fun a => ?_
        by_cases ha : k = a
        · subst a
          rw [Memory.read_below hlt, Memory.read_below hlt']
        · simpa [Memory.read_cons, ha] using h a
      rw [hmn]

/-- Writing the byte that is there changes nothing. -/
theorem Memory.write_read_self {m : Memory} {a : Nat} (hm : m.Canonical) : m.write a (m.read a) = m := by
  refine Memory.ext (Memory.canonical_write hm) hm fun b => ?_
  by_cases hb : b = a
  · subst b
    exact Memory.read_write_same hm
  · exact Memory.read_write_other hb

@[simp] theorem Memory.length_readBytes (m : Memory) (a n : Nat) : (m.readBytes a n).length = n := by
  induction n generalizing a with
  | zero => rfl
  | succ n ih => simp [Memory.readBytes, ih]

theorem Memory.getD_readBytes (m : Memory) {a n j : Nat} (d : Byte) (hj : j < n) :
    (m.readBytes a n).getD j d = m.read (a + j) := by
  induction n generalizing a j with
  | zero => omega
  | succ n ih =>
    cases j with
    | zero => simp [Memory.readBytes]
    | succ j =>
      rw [Memory.readBytes, List.getD_cons_succ, ih (by omega)]
      congr 1
      omega

theorem Memory.readBytes_congr {m n : Memory} {a b len : Nat} (h : ∀ j, j < len → m.read (a + j) = n.read (b + j)) :
    m.readBytes a len = n.readBytes b len := by
  induction len generalizing a b with
  | zero => rfl
  | succ len ih =>
    rw [Memory.readBytes, Memory.readBytes, ih fun j hj => ?_]
    · exact congrArg (· :: _) (h 0 (by omega))
    · have := h (j + 1) (by omega)
      rwa [Nat.add_comm j 1, ← Nat.add_assoc, ← Nat.add_assoc] at this

theorem Memory.take_readBytes (m : Memory) (a : Nat) {n k : Nat} (h : k ≤ n) :
    (m.readBytes a n).take k = m.readBytes a k := by
  induction n generalizing a k with
  | zero => simp [Nat.le_zero.mp h, Memory.readBytes]
  | succ n ih =>
    cases k with
    | zero => simp [Memory.readBytes]
    | succ k => simp [Memory.readBytes, ih (a + 1) (by omega : k ≤ n)]

/-- Everything a block store does to a read outside the block. -/
theorem Memory.read_writeBytes_outside {m : Memory} {a b : Nat} {vs : List Byte} (h : b < a ∨ a + vs.length ≤ b) :
    (m.writeBytes a vs).read b = m.read b := by
  induction vs generalizing a with
  | nil => rfl
  | cons v vs ih =>
    simp only [List.length_cons] at h
    rw [Memory.writeBytes, Memory.read_write_other (by omega), ih (by omega)]

theorem Memory.canonical_writeBytes {m : Memory} {a : Nat} {vs : List Byte} (hm : m.Canonical) :
    (m.writeBytes a vs).Canonical := by
  induction vs generalizing a with
  | nil => exact hm
  | cons v vs ih => exact Memory.canonical_write ih

/-- Everything a block store does to a read inside the block. -/
theorem Memory.read_writeBytes_inside {m : Memory} {a j : Nat} {vs : List Byte} (d : Byte) (hm : m.Canonical)
    (h : j < vs.length) : (m.writeBytes a vs).read (a + j) = vs.getD j d := by
  induction vs generalizing a j with
  | nil => simp at h
  | cons v vs ih =>
    cases j with
    | zero =>
      rw [Nat.add_zero, Memory.writeBytes, Memory.read_write_same (Memory.canonical_writeBytes hm)]
      simp
    | succ j =>
      rw [Memory.writeBytes, Memory.read_write_other (by omega), List.getD_cons_succ,
        show a + (j + 1) = a + 1 + j by omega, ih (by simpa using h)]

/-- A read after a block store, in one equation. -/
theorem Memory.read_writeBytes {m : Memory} {a b : Nat} {vs : List Byte} (hm : m.Canonical) :
    (m.writeBytes a vs).read b = if a ≤ b ∧ b < a + vs.length then vs.getD (b - a) 0 else m.read b := by
  split
  · next h =>
    obtain ⟨j, rfl⟩ : ∃ j, b = a + j := ⟨b - a, by omega⟩
    rw [Memory.read_writeBytes_inside 0 hm (by omega), Nat.add_sub_cancel_left]
  · exact Memory.read_writeBytes_outside (by omega)

theorem Memory.within_writeBytes {m : Memory} {a lo hi : Nat} {vs : List Byte} (hm : m.Within lo hi) (ha : lo ≤ a)
    (hb : a + vs.length ≤ hi) : (m.writeBytes a vs).Within lo hi := by
  induction vs generalizing a with
  | nil => exact hm
  | cons v vs ih =>
    simp only [List.length_cons] at hb
    exact Memory.within_write (ih (by omega) (by omega)) ha (by omega)

/-- Reading back the block just stored. -/
theorem Memory.readBytes_writeBytes {m : Memory} {a : Nat} {vs : List Byte} (hm : m.Canonical) :
    (m.writeBytes a vs).readBytes a vs.length = vs := by
  refine List.ext_getElem (by simp) fun j h1 h2 => ?_
  have h3 := Memory.getD_readBytes (m.writeBytes a vs) (a := a) 0 h2
  rw [Memory.read_writeBytes_inside 0 hm h2] at h3
  simpa [List.getD_eq_getElem?_getD, h1, h2] using h3

/-- Storing what is already there changes nothing. -/
theorem Memory.writeBytes_readBytes_self {m : Memory} {a n : Nat} (hm : m.Canonical) :
    m.writeBytes a (m.readBytes a n) = m := by
  induction n generalizing a with
  | zero => rfl
  | succ n ih => rw [Memory.readBytes, Memory.writeBytes, ih, Memory.write_read_self hm]

end Sys2Proof.Machine
end

