-- ==== Sys2Proof/Laws/State.lean ====
section
/-! SUPPORT. What each shared operation leaves in each field of State: one lemma per field per operation, so that no proof unfolds
a record update. -/

namespace Sys2Proof.Machine

variable (s : State)

@[simp] theorem State.respond_slots (r : Half) (d : Option Addr) (o : Option (List Byte)) : (s.respond r d o).slots = s.slots := rfl
@[simp] theorem State.respond_activeSlots (r : Half) (d : Option Addr) (o : Option (List Byte)) : (s.respond r d o).activeSlots = s.activeSlots := rfl
@[simp] theorem State.respond_ua (r : Half) (d : Option Addr) (o : Option (List Byte)) : (s.respond r d o).ua = s.ua := rfl
@[simp] theorem State.respond_lockValid (r : Half) (d : Option Addr) (o : Option (List Byte)) : (s.respond r d o).lockValid = s.lockValid := rfl
@[simp] theorem State.respond_lockAddr (r : Half) (d : Option Addr) (o : Option (List Byte)) : (s.respond r d o).lockAddr = s.lockAddr := rfl
@[simp] theorem State.respond_seq (r : Half) (d : Option Addr) (o : Option (List Byte)) : (s.respond r d o).seq = s.seq := rfl
@[simp] theorem State.respond_raw (r : Half) (d : Option Addr) (o : Option (List Byte)) : (s.respond r d o).raw = s.raw := rfl
@[simp] theorem State.respond_rawLen (r : Half) (d : Option Addr) (o : Option (List Byte)) : (s.respond r d o).rawLen = s.rawLen := rfl
@[simp] theorem State.respond_rxSrc (r : Half) (d : Option Addr) (o : Option (List Byte)) : (s.respond r d o).rxSrc = s.rxSrc := rfl
@[simp] theorem State.respond_nodeAddr (r : Half) (d : Option Addr) (o : Option (List Byte)) : (s.respond r d o).nodeAddr = s.nodeAddr := rfl
@[simp] theorem State.respond_bcastValid (r : Half) (d : Option Addr) (o : Option (List Byte)) : (s.respond r d o).bcastValid = s.bcastValid := rfl
@[simp] theorem State.respond_bcastAddr (r : Half) (d : Option Addr) (o : Option (List Byte)) : (s.respond r d o).bcastAddr = s.bcastAddr := rfl
@[simp] theorem State.respond_shortName (r : Half) (d : Option Addr) (o : Option (List Byte)) : (s.respond r d o).shortName = s.shortName := rfl
@[simp] theorem State.respond_longName (r : Half) (d : Option Addr) (o : Option (List Byte)) : (s.respond r d o).longName = s.longName := rfl
@[simp] theorem State.respond_ret (r : Half) (d : Option Addr) (o : Option (List Byte)) : (s.respond r d o).ret = r := rfl
@[simp] theorem State.respond_txDest (r : Half) (d : Option Addr) (o : Option (List Byte)) : (s.respond r d o).txDest = d := rfl
@[simp] theorem State.respond_slotsOut (r : Half) (d : Option Addr) (o : Option (List Byte)) : (s.respond r d o).slotsOut = o := rfl
@[simp] theorem State.respond_par (r : Half) (d : Option Addr) (o : Option (List Byte)) : (s.respond r d o).par = s.par := rfl
@[simp] theorem State.respond_port (r : Half) (d : Option Addr) (o : Option (List Byte)) : (s.respond r d o).port = s.port := rfl

@[simp] theorem State.showing_slots (r : Half) : (s.showing r).slots = s.slots := rfl
@[simp] theorem State.showing_activeSlots (r : Half) : (s.showing r).activeSlots = s.activeSlots := rfl
@[simp] theorem State.showing_ua (r : Half) : (s.showing r).ua = s.ua := rfl
@[simp] theorem State.showing_lockValid (r : Half) : (s.showing r).lockValid = s.lockValid := rfl
@[simp] theorem State.showing_lockAddr (r : Half) : (s.showing r).lockAddr = s.lockAddr := rfl
@[simp] theorem State.showing_seq (r : Half) : (s.showing r).seq = s.seq := rfl
@[simp] theorem State.showing_raw (r : Half) : (s.showing r).raw = s.raw := rfl
@[simp] theorem State.showing_rawLen (r : Half) : (s.showing r).rawLen = s.rawLen := rfl
@[simp] theorem State.showing_rxSrc (r : Half) : (s.showing r).rxSrc = s.rxSrc := rfl
@[simp] theorem State.showing_nodeAddr (r : Half) : (s.showing r).nodeAddr = s.nodeAddr := rfl
@[simp] theorem State.showing_bcastValid (r : Half) : (s.showing r).bcastValid = s.bcastValid := rfl
@[simp] theorem State.showing_bcastAddr (r : Half) : (s.showing r).bcastAddr = s.bcastAddr := rfl
@[simp] theorem State.showing_shortName (r : Half) : (s.showing r).shortName = s.shortName := rfl
@[simp] theorem State.showing_longName (r : Half) : (s.showing r).longName = s.longName := rfl
@[simp] theorem State.showing_ret (r : Half) : (s.showing r).ret = r := rfl
@[simp] theorem State.showing_txDest (r : Half) : (s.showing r).txDest = none := rfl
@[simp] theorem State.showing_slotsOut (r : Half) : (s.showing r).slotsOut = none := rfl
@[simp] theorem State.showing_par (r : Half) : (s.showing r).par = s.par := rfl
@[simp] theorem State.showing_port (r : Half) : (s.showing r).port = s.port := rfl

@[simp] theorem State.setActive_slots (n : BitVec 10) : (s.setActive n).slots = s.slots := rfl
@[simp] theorem State.setActive_activeSlots (n : BitVec 10) : (s.setActive n).activeSlots = n := rfl
@[simp] theorem State.setActive_ua (n : BitVec 10) : (s.setActive n).ua = s.ua := rfl
@[simp] theorem State.setActive_lockValid (n : BitVec 10) : (s.setActive n).lockValid = s.lockValid := rfl
@[simp] theorem State.setActive_lockAddr (n : BitVec 10) : (s.setActive n).lockAddr = s.lockAddr := rfl
@[simp] theorem State.setActive_seq (n : BitVec 10) : (s.setActive n).seq = s.seq := rfl
@[simp] theorem State.setActive_raw (n : BitVec 10) : (s.setActive n).raw = s.raw := rfl
@[simp] theorem State.setActive_rawLen (n : BitVec 10) : (s.setActive n).rawLen = s.rawLen := rfl
@[simp] theorem State.setActive_rxSrc (n : BitVec 10) : (s.setActive n).rxSrc = s.rxSrc := rfl
@[simp] theorem State.setActive_nodeAddr (n : BitVec 10) : (s.setActive n).nodeAddr = s.nodeAddr := rfl
@[simp] theorem State.setActive_bcastValid (n : BitVec 10) : (s.setActive n).bcastValid = s.bcastValid := rfl
@[simp] theorem State.setActive_bcastAddr (n : BitVec 10) : (s.setActive n).bcastAddr = s.bcastAddr := rfl
@[simp] theorem State.setActive_shortName (n : BitVec 10) : (s.setActive n).shortName = s.shortName := rfl
@[simp] theorem State.setActive_longName (n : BitVec 10) : (s.setActive n).longName = s.longName := rfl
@[simp] theorem State.setActive_ret (n : BitVec 10) : (s.setActive n).ret = s.ret := rfl
@[simp] theorem State.setActive_txDest (n : BitVec 10) : (s.setActive n).txDest = s.txDest := rfl
@[simp] theorem State.setActive_slotsOut (n : BitVec 10) : (s.setActive n).slotsOut = s.slotsOut := rfl
@[simp] theorem State.setActive_par (n : BitVec 10) : (s.setActive n).par = s.par := rfl
@[simp] theorem State.setActive_port (n : BitVec 10) : (s.setActive n).port = s.port := rfl

@[simp] theorem State.copyPayload_slots (vs : List Byte) : (s.copyPayload vs).slots = s.slots.writeBytes 1 vs := rfl
@[simp] theorem State.copyPayload_activeSlots (vs : List Byte) : (s.copyPayload vs).activeSlots = s.activeSlots := rfl
@[simp] theorem State.copyPayload_ua (vs : List Byte) : (s.copyPayload vs).ua = s.ua := rfl
@[simp] theorem State.copyPayload_lockValid (vs : List Byte) : (s.copyPayload vs).lockValid = s.lockValid := rfl
@[simp] theorem State.copyPayload_lockAddr (vs : List Byte) : (s.copyPayload vs).lockAddr = s.lockAddr := rfl
@[simp] theorem State.copyPayload_seq (vs : List Byte) : (s.copyPayload vs).seq = s.seq := rfl
@[simp] theorem State.copyPayload_raw (vs : List Byte) : (s.copyPayload vs).raw = s.raw := rfl
@[simp] theorem State.copyPayload_rawLen (vs : List Byte) : (s.copyPayload vs).rawLen = s.rawLen := rfl
@[simp] theorem State.copyPayload_rxSrc (vs : List Byte) : (s.copyPayload vs).rxSrc = s.rxSrc := rfl
@[simp] theorem State.copyPayload_nodeAddr (vs : List Byte) : (s.copyPayload vs).nodeAddr = s.nodeAddr := rfl
@[simp] theorem State.copyPayload_bcastValid (vs : List Byte) : (s.copyPayload vs).bcastValid = s.bcastValid := rfl
@[simp] theorem State.copyPayload_bcastAddr (vs : List Byte) : (s.copyPayload vs).bcastAddr = s.bcastAddr := rfl
@[simp] theorem State.copyPayload_shortName (vs : List Byte) : (s.copyPayload vs).shortName = s.shortName := rfl
@[simp] theorem State.copyPayload_longName (vs : List Byte) : (s.copyPayload vs).longName = s.longName := rfl
@[simp] theorem State.copyPayload_ret (vs : List Byte) : (s.copyPayload vs).ret = s.ret := rfl
@[simp] theorem State.copyPayload_txDest (vs : List Byte) : (s.copyPayload vs).txDest = s.txDest := rfl
@[simp] theorem State.copyPayload_slotsOut (vs : List Byte) : (s.copyPayload vs).slotsOut = s.slotsOut := rfl
@[simp] theorem State.copyPayload_par (vs : List Byte) : (s.copyPayload vs).par = s.par := rfl
@[simp] theorem State.copyPayload_port (vs : List Byte) : (s.copyPayload vs).port = s.port := rfl

@[simp] theorem State.takeLock_slots : s.takeLock.slots = s.slots := rfl
@[simp] theorem State.takeLock_activeSlots : s.takeLock.activeSlots = s.activeSlots := rfl
@[simp] theorem State.takeLock_ua : s.takeLock.ua = s.ua := rfl
@[simp] theorem State.takeLock_lockValid : s.takeLock.lockValid = true := rfl
@[simp] theorem State.takeLock_lockAddr : s.takeLock.lockAddr = s.rxSrc := rfl
@[simp] theorem State.takeLock_seq : s.takeLock.seq = s.seq := rfl
@[simp] theorem State.takeLock_raw : s.takeLock.raw = s.raw := rfl
@[simp] theorem State.takeLock_rawLen : s.takeLock.rawLen = s.rawLen := rfl
@[simp] theorem State.takeLock_rxSrc : s.takeLock.rxSrc = s.rxSrc := rfl
@[simp] theorem State.takeLock_nodeAddr : s.takeLock.nodeAddr = s.nodeAddr := rfl
@[simp] theorem State.takeLock_bcastValid : s.takeLock.bcastValid = s.bcastValid := rfl
@[simp] theorem State.takeLock_bcastAddr : s.takeLock.bcastAddr = s.bcastAddr := rfl
@[simp] theorem State.takeLock_shortName : s.takeLock.shortName = s.shortName := rfl
@[simp] theorem State.takeLock_longName : s.takeLock.longName = s.longName := rfl
@[simp] theorem State.takeLock_ret : s.takeLock.ret = s.ret := rfl
@[simp] theorem State.takeLock_txDest : s.takeLock.txDest = s.txDest := rfl
@[simp] theorem State.takeLock_slotsOut : s.takeLock.slotsOut = s.slotsOut := rfl
@[simp] theorem State.takeLock_par : s.takeLock.par = s.par := rfl
@[simp] theorem State.takeLock_port : s.takeLock.port = s.port := rfl

@[simp] theorem State.releaseLock_slots : s.releaseLock.slots = s.slots := rfl
@[simp] theorem State.releaseLock_activeSlots : s.releaseLock.activeSlots = s.activeSlots := rfl
@[simp] theorem State.releaseLock_ua : s.releaseLock.ua = s.ua := rfl
@[simp] theorem State.releaseLock_lockValid : s.releaseLock.lockValid = false := rfl
@[simp] theorem State.releaseLock_lockAddr : s.releaseLock.lockAddr = s.lockAddr := rfl
@[simp] theorem State.releaseLock_seq : s.releaseLock.seq = s.seq := rfl
@[simp] theorem State.releaseLock_raw : s.releaseLock.raw = s.raw := rfl
@[simp] theorem State.releaseLock_rawLen : s.releaseLock.rawLen = s.rawLen := rfl
@[simp] theorem State.releaseLock_rxSrc : s.releaseLock.rxSrc = s.rxSrc := rfl
@[simp] theorem State.releaseLock_nodeAddr : s.releaseLock.nodeAddr = s.nodeAddr := rfl
@[simp] theorem State.releaseLock_bcastValid : s.releaseLock.bcastValid = s.bcastValid := rfl
@[simp] theorem State.releaseLock_bcastAddr : s.releaseLock.bcastAddr = s.bcastAddr := rfl
@[simp] theorem State.releaseLock_shortName : s.releaseLock.shortName = s.shortName := rfl
@[simp] theorem State.releaseLock_longName : s.releaseLock.longName = s.longName := rfl
@[simp] theorem State.releaseLock_ret : s.releaseLock.ret = s.ret := rfl
@[simp] theorem State.releaseLock_txDest : s.releaseLock.txDest = s.txDest := rfl
@[simp] theorem State.releaseLock_slotsOut : s.releaseLock.slotsOut = s.slotsOut := rfl
@[simp] theorem State.releaseLock_par : s.releaseLock.par = s.par := rfl
@[simp] theorem State.releaseLock_port : s.releaseLock.port = s.port := rfl

@[simp] theorem State.setAddress_slots (u : Byte) : (s.setAddress u).slots = s.slots := rfl
@[simp] theorem State.setAddress_activeSlots (u : Byte) : (s.setAddress u).activeSlots = s.activeSlots := rfl
@[simp] theorem State.setAddress_ua (u : Byte) : (s.setAddress u).ua = u := rfl
@[simp] theorem State.setAddress_lockValid (u : Byte) : (s.setAddress u).lockValid = s.lockValid := rfl
@[simp] theorem State.setAddress_lockAddr (u : Byte) : (s.setAddress u).lockAddr = s.lockAddr := rfl
@[simp] theorem State.setAddress_seq (u : Byte) : (s.setAddress u).seq = s.seq := rfl
@[simp] theorem State.setAddress_raw (u : Byte) : (s.setAddress u).raw = s.raw := rfl
@[simp] theorem State.setAddress_rawLen (u : Byte) : (s.setAddress u).rawLen = s.rawLen := rfl
@[simp] theorem State.setAddress_rxSrc (u : Byte) : (s.setAddress u).rxSrc = s.rxSrc := rfl
@[simp] theorem State.setAddress_nodeAddr (u : Byte) : (s.setAddress u).nodeAddr = s.nodeAddr := rfl
@[simp] theorem State.setAddress_bcastValid (u : Byte) : (s.setAddress u).bcastValid = s.bcastValid := rfl
@[simp] theorem State.setAddress_bcastAddr (u : Byte) : (s.setAddress u).bcastAddr = s.bcastAddr := rfl
@[simp] theorem State.setAddress_shortName (u : Byte) : (s.setAddress u).shortName = s.shortName := rfl
@[simp] theorem State.setAddress_longName (u : Byte) : (s.setAddress u).longName = s.longName := rfl
@[simp] theorem State.setAddress_ret (u : Byte) : (s.setAddress u).ret = s.ret := rfl
@[simp] theorem State.setAddress_txDest (u : Byte) : (s.setAddress u).txDest = s.txDest := rfl
@[simp] theorem State.setAddress_slotsOut (u : Byte) : (s.setAddress u).slotsOut = s.slotsOut := rfl
@[simp] theorem State.setAddress_par (u : Byte) : (s.setAddress u).par = s.par := rfl
@[simp] theorem State.setAddress_port (u : Byte) : (s.setAddress u).port = s.port := rfl

@[simp] theorem State.advanceSeq_slots : s.advanceSeq.slots = s.slots := rfl
@[simp] theorem State.advanceSeq_activeSlots : s.advanceSeq.activeSlots = s.activeSlots := rfl
@[simp] theorem State.advanceSeq_ua : s.advanceSeq.ua = s.ua := rfl
@[simp] theorem State.advanceSeq_lockValid : s.advanceSeq.lockValid = s.lockValid := rfl
@[simp] theorem State.advanceSeq_lockAddr : s.advanceSeq.lockAddr = s.lockAddr := rfl
@[simp] theorem State.advanceSeq_seq : s.advanceSeq.seq = s.seq + 1 := rfl
@[simp] theorem State.advanceSeq_raw : s.advanceSeq.raw = s.raw := rfl
@[simp] theorem State.advanceSeq_rawLen : s.advanceSeq.rawLen = s.rawLen := rfl
@[simp] theorem State.advanceSeq_rxSrc : s.advanceSeq.rxSrc = s.rxSrc := rfl
@[simp] theorem State.advanceSeq_nodeAddr : s.advanceSeq.nodeAddr = s.nodeAddr := rfl
@[simp] theorem State.advanceSeq_bcastValid : s.advanceSeq.bcastValid = s.bcastValid := rfl
@[simp] theorem State.advanceSeq_bcastAddr : s.advanceSeq.bcastAddr = s.bcastAddr := rfl
@[simp] theorem State.advanceSeq_shortName : s.advanceSeq.shortName = s.shortName := rfl
@[simp] theorem State.advanceSeq_longName : s.advanceSeq.longName = s.longName := rfl
@[simp] theorem State.advanceSeq_ret : s.advanceSeq.ret = s.ret := rfl
@[simp] theorem State.advanceSeq_txDest : s.advanceSeq.txDest = s.txDest := rfl
@[simp] theorem State.advanceSeq_slotsOut : s.advanceSeq.slotsOut = s.slotsOut := rfl
@[simp] theorem State.advanceSeq_par : s.advanceSeq.par = s.par := rfl
@[simp] theorem State.advanceSeq_port : s.advanceSeq.port = s.port := rfl

@[simp] theorem State.putDatagram_slots (vs : List Byte) : (s.putDatagram vs).slots = s.slots := rfl
@[simp] theorem State.putDatagram_activeSlots (vs : List Byte) : (s.putDatagram vs).activeSlots = s.activeSlots := rfl
@[simp] theorem State.putDatagram_ua (vs : List Byte) : (s.putDatagram vs).ua = s.ua := rfl
@[simp] theorem State.putDatagram_lockValid (vs : List Byte) : (s.putDatagram vs).lockValid = s.lockValid := rfl
@[simp] theorem State.putDatagram_lockAddr (vs : List Byte) : (s.putDatagram vs).lockAddr = s.lockAddr := rfl
@[simp] theorem State.putDatagram_seq (vs : List Byte) : (s.putDatagram vs).seq = s.seq := rfl
@[simp] theorem State.putDatagram_raw (vs : List Byte) : (s.putDatagram vs).raw = s.raw.writeBytes 0 vs := rfl
@[simp] theorem State.putDatagram_rawLen (vs : List Byte) : (s.putDatagram vs).rawLen = vs.length := rfl
@[simp] theorem State.putDatagram_rxSrc (vs : List Byte) : (s.putDatagram vs).rxSrc = s.rxSrc := rfl
@[simp] theorem State.putDatagram_nodeAddr (vs : List Byte) : (s.putDatagram vs).nodeAddr = s.nodeAddr := rfl
@[simp] theorem State.putDatagram_bcastValid (vs : List Byte) : (s.putDatagram vs).bcastValid = s.bcastValid := rfl
@[simp] theorem State.putDatagram_bcastAddr (vs : List Byte) : (s.putDatagram vs).bcastAddr = s.bcastAddr := rfl
@[simp] theorem State.putDatagram_shortName (vs : List Byte) : (s.putDatagram vs).shortName = s.shortName := rfl
@[simp] theorem State.putDatagram_longName (vs : List Byte) : (s.putDatagram vs).longName = s.longName := rfl
@[simp] theorem State.putDatagram_ret (vs : List Byte) : (s.putDatagram vs).ret = s.ret := rfl
@[simp] theorem State.putDatagram_txDest (vs : List Byte) : (s.putDatagram vs).txDest = s.txDest := rfl
@[simp] theorem State.putDatagram_slotsOut (vs : List Byte) : (s.putDatagram vs).slotsOut = s.slotsOut := rfl
@[simp] theorem State.putDatagram_par (vs : List Byte) : (s.putDatagram vs).par = s.par := rfl
@[simp] theorem State.putDatagram_port (vs : List Byte) : (s.putDatagram vs).port = s.port := rfl

@[simp] theorem State.latchSource_slots (a : Addr) : (s.latchSource a).slots = s.slots := rfl
@[simp] theorem State.latchSource_activeSlots (a : Addr) : (s.latchSource a).activeSlots = s.activeSlots := rfl
@[simp] theorem State.latchSource_ua (a : Addr) : (s.latchSource a).ua = s.ua := rfl
@[simp] theorem State.latchSource_lockValid (a : Addr) : (s.latchSource a).lockValid = s.lockValid := rfl
@[simp] theorem State.latchSource_lockAddr (a : Addr) : (s.latchSource a).lockAddr = s.lockAddr := rfl
@[simp] theorem State.latchSource_seq (a : Addr) : (s.latchSource a).seq = s.seq := rfl
@[simp] theorem State.latchSource_raw (a : Addr) : (s.latchSource a).raw = s.raw := rfl
@[simp] theorem State.latchSource_rawLen (a : Addr) : (s.latchSource a).rawLen = s.rawLen := rfl
@[simp] theorem State.latchSource_rxSrc (a : Addr) : (s.latchSource a).rxSrc = a := rfl
@[simp] theorem State.latchSource_nodeAddr (a : Addr) : (s.latchSource a).nodeAddr = s.nodeAddr := rfl
@[simp] theorem State.latchSource_bcastValid (a : Addr) : (s.latchSource a).bcastValid = s.bcastValid := rfl
@[simp] theorem State.latchSource_bcastAddr (a : Addr) : (s.latchSource a).bcastAddr = s.bcastAddr := rfl
@[simp] theorem State.latchSource_shortName (a : Addr) : (s.latchSource a).shortName = s.shortName := rfl
@[simp] theorem State.latchSource_longName (a : Addr) : (s.latchSource a).longName = s.longName := rfl
@[simp] theorem State.latchSource_ret (a : Addr) : (s.latchSource a).ret = s.ret := rfl
@[simp] theorem State.latchSource_txDest (a : Addr) : (s.latchSource a).txDest = s.txDest := rfl
@[simp] theorem State.latchSource_slotsOut (a : Addr) : (s.latchSource a).slotsOut = s.slotsOut := rfl
@[simp] theorem State.latchSource_par (a : Addr) : (s.latchSource a).par = s.par := rfl
@[simp] theorem State.latchSource_port (a : Addr) : (s.latchSource a).port = s.port := rfl

@[simp] theorem State.putReply_slots : s.putReply.slots = s.slots := rfl
@[simp] theorem State.putReply_activeSlots : s.putReply.activeSlots = s.activeSlots := rfl
@[simp] theorem State.putReply_ua : s.putReply.ua = s.ua := rfl
@[simp] theorem State.putReply_lockValid : s.putReply.lockValid = s.lockValid := rfl
@[simp] theorem State.putReply_lockAddr : s.putReply.lockAddr = s.lockAddr := rfl
@[simp] theorem State.putReply_seq : s.putReply.seq = s.seq := rfl
@[simp] theorem State.putReply_raw : s.putReply.raw = storeParts s.raw s.replyParts := rfl
@[simp] theorem State.putReply_rawLen : s.putReply.rawLen = pollReplyLen := rfl
@[simp] theorem State.putReply_rxSrc : s.putReply.rxSrc = s.rxSrc := rfl
@[simp] theorem State.putReply_nodeAddr : s.putReply.nodeAddr = s.nodeAddr := rfl
@[simp] theorem State.putReply_bcastValid : s.putReply.bcastValid = s.bcastValid := rfl
@[simp] theorem State.putReply_bcastAddr : s.putReply.bcastAddr = s.bcastAddr := rfl
@[simp] theorem State.putReply_shortName : s.putReply.shortName = s.shortName := rfl
@[simp] theorem State.putReply_longName : s.putReply.longName = s.longName := rfl
@[simp] theorem State.putReply_ret : s.putReply.ret = s.ret := rfl
@[simp] theorem State.putReply_txDest : s.putReply.txDest = s.txDest := rfl
@[simp] theorem State.putReply_slotsOut : s.putReply.slotsOut = s.slotsOut := rfl
@[simp] theorem State.putReply_par : s.putReply.par = s.par := rfl
@[simp] theorem State.putReply_port : s.putReply.port = s.port := rfl

@[simp] theorem State.placeRequest_slots (q : Request) : (s.placeRequest q).slots = s.slots := rfl
@[simp] theorem State.placeRequest_activeSlots (q : Request) : (s.placeRequest q).activeSlots = s.activeSlots := rfl
@[simp] theorem State.placeRequest_ua (q : Request) : (s.placeRequest q).ua = s.ua := rfl
@[simp] theorem State.placeRequest_lockValid (q : Request) : (s.placeRequest q).lockValid = s.lockValid := rfl
@[simp] theorem State.placeRequest_lockAddr (q : Request) : (s.placeRequest q).lockAddr = s.lockAddr := rfl
@[simp] theorem State.placeRequest_seq (q : Request) : (s.placeRequest q).seq = s.seq := rfl
@[simp] theorem State.placeRequest_raw (q : Request) : (s.placeRequest q).raw = s.raw := rfl
@[simp] theorem State.placeRequest_rawLen (q : Request) : (s.placeRequest q).rawLen = s.rawLen := rfl
@[simp] theorem State.placeRequest_rxSrc (q : Request) : (s.placeRequest q).rxSrc = s.rxSrc := rfl
@[simp] theorem State.placeRequest_nodeAddr (q : Request) : (s.placeRequest q).nodeAddr = s.nodeAddr := rfl
@[simp] theorem State.placeRequest_bcastValid (q : Request) : (s.placeRequest q).bcastValid = s.bcastValid := rfl
@[simp] theorem State.placeRequest_bcastAddr (q : Request) : (s.placeRequest q).bcastAddr = s.bcastAddr := rfl
@[simp] theorem State.placeRequest_shortName (q : Request) : (s.placeRequest q).shortName = s.shortName := rfl
@[simp] theorem State.placeRequest_longName (q : Request) : (s.placeRequest q).longName = s.longName := rfl
@[simp] theorem State.placeRequest_ret (q : Request) : (s.placeRequest q).ret = s.ret := rfl
@[simp] theorem State.placeRequest_txDest (q : Request) : (s.placeRequest q).txDest = s.txDest := rfl
@[simp] theorem State.placeRequest_slotsOut (q : Request) : (s.placeRequest q).slotsOut = s.slotsOut := rfl
@[simp] theorem State.placeRequest_par (q : Request) : (s.placeRequest q).par = s.par := rfl
@[simp] theorem State.placeRequest_port (q : Request) : (s.placeRequest q).port = q :: s.port := rfl

@[simp] theorem State.acceptData_slots (len : Nat) : (s.acceptData len).slots = s.slots.writeBytes 1 (s.dataPayload len) := rfl
@[simp] theorem State.acceptData_activeSlots (len : Nat) : (s.acceptData len).activeSlots = BitVec.ofNat 10 len := rfl
@[simp] theorem State.acceptData_ua (len : Nat) : (s.acceptData len).ua = s.ua := rfl
@[simp] theorem State.acceptData_lockValid (len : Nat) : (s.acceptData len).lockValid = true := rfl
@[simp] theorem State.acceptData_lockAddr (len : Nat) : (s.acceptData len).lockAddr = s.rxSrc := rfl
@[simp] theorem State.acceptData_seq (len : Nat) : (s.acceptData len).seq = s.seq := rfl
@[simp] theorem State.acceptData_raw (len : Nat) : (s.acceptData len).raw = s.raw := rfl
@[simp] theorem State.acceptData_rawLen (len : Nat) : (s.acceptData len).rawLen = s.rawLen := rfl
@[simp] theorem State.acceptData_rxSrc (len : Nat) : (s.acceptData len).rxSrc = s.rxSrc := rfl
@[simp] theorem State.acceptData_nodeAddr (len : Nat) : (s.acceptData len).nodeAddr = s.nodeAddr := rfl
@[simp] theorem State.acceptData_bcastValid (len : Nat) : (s.acceptData len).bcastValid = s.bcastValid := rfl
@[simp] theorem State.acceptData_bcastAddr (len : Nat) : (s.acceptData len).bcastAddr = s.bcastAddr := rfl
@[simp] theorem State.acceptData_shortName (len : Nat) : (s.acceptData len).shortName = s.shortName := rfl
@[simp] theorem State.acceptData_longName (len : Nat) : (s.acceptData len).longName = s.longName := rfl
@[simp] theorem State.acceptData_ret (len : Nat) : (s.acceptData len).ret = s.ret := rfl
@[simp] theorem State.acceptData_txDest (len : Nat) : (s.acceptData len).txDest = s.txDest := rfl
@[simp] theorem State.acceptData_slotsOut (len : Nat) : (s.acceptData len).slotsOut = s.slotsOut := rfl
@[simp] theorem State.acceptData_par (len : Nat) : (s.acceptData len).par = s.par := rfl
@[simp] theorem State.acceptData_port (len : Nat) : (s.acceptData len).port = s.port := rfl

@[simp] theorem State.writeSlot_activeSlots (j : Nat) (v : Byte) : (s.writeSlot j v).activeSlots = s.activeSlots := by unfold State.writeSlot; split <;> rfl
@[simp] theorem State.writeSlot_ua (j : Nat) (v : Byte) : (s.writeSlot j v).ua = s.ua := by unfold State.writeSlot; split <;> rfl
@[simp] theorem State.writeSlot_lockValid (j : Nat) (v : Byte) : (s.writeSlot j v).lockValid = s.lockValid := by unfold State.writeSlot; split <;> rfl
@[simp] theorem State.writeSlot_lockAddr (j : Nat) (v : Byte) : (s.writeSlot j v).lockAddr = s.lockAddr := by unfold State.writeSlot; split <;> rfl
@[simp] theorem State.writeSlot_seq (j : Nat) (v : Byte) : (s.writeSlot j v).seq = s.seq := by unfold State.writeSlot; split <;> rfl
@[simp] theorem State.writeSlot_raw (j : Nat) (v : Byte) : (s.writeSlot j v).raw = s.raw := by unfold State.writeSlot; split <;> rfl
@[simp] theorem State.writeSlot_rawLen (j : Nat) (v : Byte) : (s.writeSlot j v).rawLen = s.rawLen := by unfold State.writeSlot; split <;> rfl
@[simp] theorem State.writeSlot_rxSrc (j : Nat) (v : Byte) : (s.writeSlot j v).rxSrc = s.rxSrc := by unfold State.writeSlot; split <;> rfl
@[simp] theorem State.writeSlot_nodeAddr (j : Nat) (v : Byte) : (s.writeSlot j v).nodeAddr = s.nodeAddr := by unfold State.writeSlot; split <;> rfl
@[simp] theorem State.writeSlot_bcastValid (j : Nat) (v : Byte) : (s.writeSlot j v).bcastValid = s.bcastValid := by unfold State.writeSlot; split <;> rfl
@[simp] theorem State.writeSlot_bcastAddr (j : Nat) (v : Byte) : (s.writeSlot j v).bcastAddr = s.bcastAddr := by unfold State.writeSlot; split <;> rfl
@[simp] theorem State.writeSlot_shortName (j : Nat) (v : Byte) : (s.writeSlot j v).shortName = s.shortName := by unfold State.writeSlot; split <;> rfl
@[simp] theorem State.writeSlot_longName (j : Nat) (v : Byte) : (s.writeSlot j v).longName = s.longName := by unfold State.writeSlot; split <;> rfl
@[simp] theorem State.writeSlot_ret (j : Nat) (v : Byte) : (s.writeSlot j v).ret = s.ret := by unfold State.writeSlot; split <;> rfl
@[simp] theorem State.writeSlot_txDest (j : Nat) (v : Byte) : (s.writeSlot j v).txDest = s.txDest := by unfold State.writeSlot; split <;> rfl
@[simp] theorem State.writeSlot_slotsOut (j : Nat) (v : Byte) : (s.writeSlot j v).slotsOut = s.slotsOut := by unfold State.writeSlot; split <;> rfl
@[simp] theorem State.writeSlot_par (j : Nat) (v : Byte) : (s.writeSlot j v).par = s.par := by unfold State.writeSlot; split <;> rfl
@[simp] theorem State.writeSlot_port (j : Nat) (v : Byte) : (s.writeSlot j v).port = s.port := by unfold State.writeSlot; split <;> rfl

@[simp] theorem State.applyUniverse_slots (c : Byte) : (s.applyUniverse c).slots = s.slots := by unfold State.applyUniverse; split <;> rfl
@[simp] theorem State.applyUniverse_activeSlots (c : Byte) : (s.applyUniverse c).activeSlots = s.activeSlots := by unfold State.applyUniverse; split <;> rfl
@[simp] theorem State.applyUniverse_lockValid (c : Byte) : (s.applyUniverse c).lockValid = s.lockValid := by unfold State.applyUniverse; split <;> rfl
@[simp] theorem State.applyUniverse_lockAddr (c : Byte) : (s.applyUniverse c).lockAddr = s.lockAddr := by unfold State.applyUniverse; split <;> rfl
@[simp] theorem State.applyUniverse_seq (c : Byte) : (s.applyUniverse c).seq = s.seq := by unfold State.applyUniverse; split <;> rfl
@[simp] theorem State.applyUniverse_raw (c : Byte) : (s.applyUniverse c).raw = s.raw := by unfold State.applyUniverse; split <;> rfl
@[simp] theorem State.applyUniverse_rawLen (c : Byte) : (s.applyUniverse c).rawLen = s.rawLen := by unfold State.applyUniverse; split <;> rfl
@[simp] theorem State.applyUniverse_rxSrc (c : Byte) : (s.applyUniverse c).rxSrc = s.rxSrc := by unfold State.applyUniverse; split <;> rfl
@[simp] theorem State.applyUniverse_nodeAddr (c : Byte) : (s.applyUniverse c).nodeAddr = s.nodeAddr := by unfold State.applyUniverse; split <;> rfl
@[simp] theorem State.applyUniverse_bcastValid (c : Byte) : (s.applyUniverse c).bcastValid = s.bcastValid := by unfold State.applyUniverse; split <;> rfl
@[simp] theorem State.applyUniverse_bcastAddr (c : Byte) : (s.applyUniverse c).bcastAddr = s.bcastAddr := by unfold State.applyUniverse; split <;> rfl
@[simp] theorem State.applyUniverse_shortName (c : Byte) : (s.applyUniverse c).shortName = s.shortName := by unfold State.applyUniverse; split <;> rfl
@[simp] theorem State.applyUniverse_longName (c : Byte) : (s.applyUniverse c).longName = s.longName := by unfold State.applyUniverse; split <;> rfl
@[simp] theorem State.applyUniverse_ret (c : Byte) : (s.applyUniverse c).ret = s.ret := by unfold State.applyUniverse; split <;> rfl
@[simp] theorem State.applyUniverse_txDest (c : Byte) : (s.applyUniverse c).txDest = s.txDest := by unfold State.applyUniverse; split <;> rfl
@[simp] theorem State.applyUniverse_slotsOut (c : Byte) : (s.applyUniverse c).slotsOut = s.slotsOut := by unfold State.applyUniverse; split <;> rfl
@[simp] theorem State.applyUniverse_par (c : Byte) : (s.applyUniverse c).par = s.par := by unfold State.applyUniverse; split <;> rfl
@[simp] theorem State.applyUniverse_port (c : Byte) : (s.applyUniverse c).port = s.port := by unfold State.applyUniverse; split <;> rfl

@[simp] theorem State.applySubnet_slots (c : Byte) : (s.applySubnet c).slots = s.slots := by unfold State.applySubnet; split <;> rfl
@[simp] theorem State.applySubnet_activeSlots (c : Byte) : (s.applySubnet c).activeSlots = s.activeSlots := by unfold State.applySubnet; split <;> rfl
@[simp] theorem State.applySubnet_lockValid (c : Byte) : (s.applySubnet c).lockValid = s.lockValid := by unfold State.applySubnet; split <;> rfl
@[simp] theorem State.applySubnet_lockAddr (c : Byte) : (s.applySubnet c).lockAddr = s.lockAddr := by unfold State.applySubnet; split <;> rfl
@[simp] theorem State.applySubnet_seq (c : Byte) : (s.applySubnet c).seq = s.seq := by unfold State.applySubnet; split <;> rfl
@[simp] theorem State.applySubnet_raw (c : Byte) : (s.applySubnet c).raw = s.raw := by unfold State.applySubnet; split <;> rfl
@[simp] theorem State.applySubnet_rawLen (c : Byte) : (s.applySubnet c).rawLen = s.rawLen := by unfold State.applySubnet; split <;> rfl
@[simp] theorem State.applySubnet_rxSrc (c : Byte) : (s.applySubnet c).rxSrc = s.rxSrc := by unfold State.applySubnet; split <;> rfl
@[simp] theorem State.applySubnet_nodeAddr (c : Byte) : (s.applySubnet c).nodeAddr = s.nodeAddr := by unfold State.applySubnet; split <;> rfl
@[simp] theorem State.applySubnet_bcastValid (c : Byte) : (s.applySubnet c).bcastValid = s.bcastValid := by unfold State.applySubnet; split <;> rfl
@[simp] theorem State.applySubnet_bcastAddr (c : Byte) : (s.applySubnet c).bcastAddr = s.bcastAddr := by unfold State.applySubnet; split <;> rfl
@[simp] theorem State.applySubnet_shortName (c : Byte) : (s.applySubnet c).shortName = s.shortName := by unfold State.applySubnet; split <;> rfl
@[simp] theorem State.applySubnet_longName (c : Byte) : (s.applySubnet c).longName = s.longName := by unfold State.applySubnet; split <;> rfl
@[simp] theorem State.applySubnet_ret (c : Byte) : (s.applySubnet c).ret = s.ret := by unfold State.applySubnet; split <;> rfl
@[simp] theorem State.applySubnet_txDest (c : Byte) : (s.applySubnet c).txDest = s.txDest := by unfold State.applySubnet; split <;> rfl
@[simp] theorem State.applySubnet_slotsOut (c : Byte) : (s.applySubnet c).slotsOut = s.slotsOut := by unfold State.applySubnet; split <;> rfl
@[simp] theorem State.applySubnet_par (c : Byte) : (s.applySubnet c).par = s.par := by unfold State.applySubnet; split <;> rfl
@[simp] theorem State.applySubnet_port (c : Byte) : (s.applySubnet c).port = s.port := by unfold State.applySubnet; split <;> rfl

@[simp] theorem State.storeShortName_slots : s.storeShortName.slots = s.slots := by unfold State.storeShortName; split <;> rfl
@[simp] theorem State.storeShortName_activeSlots : s.storeShortName.activeSlots = s.activeSlots := by unfold State.storeShortName; split <;> rfl
@[simp] theorem State.storeShortName_ua : s.storeShortName.ua = s.ua := by unfold State.storeShortName; split <;> rfl
@[simp] theorem State.storeShortName_lockValid : s.storeShortName.lockValid = s.lockValid := by unfold State.storeShortName; split <;> rfl
@[simp] theorem State.storeShortName_lockAddr : s.storeShortName.lockAddr = s.lockAddr := by unfold State.storeShortName; split <;> rfl
@[simp] theorem State.storeShortName_seq : s.storeShortName.seq = s.seq := by unfold State.storeShortName; split <;> rfl
@[simp] theorem State.storeShortName_raw : s.storeShortName.raw = s.raw := by unfold State.storeShortName; split <;> rfl
@[simp] theorem State.storeShortName_rawLen : s.storeShortName.rawLen = s.rawLen := by unfold State.storeShortName; split <;> rfl
@[simp] theorem State.storeShortName_rxSrc : s.storeShortName.rxSrc = s.rxSrc := by unfold State.storeShortName; split <;> rfl
@[simp] theorem State.storeShortName_nodeAddr : s.storeShortName.nodeAddr = s.nodeAddr := by unfold State.storeShortName; split <;> rfl
@[simp] theorem State.storeShortName_bcastValid : s.storeShortName.bcastValid = s.bcastValid := by unfold State.storeShortName; split <;> rfl
@[simp] theorem State.storeShortName_bcastAddr : s.storeShortName.bcastAddr = s.bcastAddr := by unfold State.storeShortName; split <;> rfl
@[simp] theorem State.storeShortName_longName : s.storeShortName.longName = s.longName := by unfold State.storeShortName; split <;> rfl
@[simp] theorem State.storeShortName_ret : s.storeShortName.ret = s.ret := by unfold State.storeShortName; split <;> rfl
@[simp] theorem State.storeShortName_txDest : s.storeShortName.txDest = s.txDest := by unfold State.storeShortName; split <;> rfl
@[simp] theorem State.storeShortName_slotsOut : s.storeShortName.slotsOut = s.slotsOut := by unfold State.storeShortName; split <;> rfl
@[simp] theorem State.storeShortName_par : s.storeShortName.par = s.par := by unfold State.storeShortName; split <;> rfl
@[simp] theorem State.storeShortName_port : s.storeShortName.port = s.port := by unfold State.storeShortName; split <;> rfl

@[simp] theorem State.storeLongName_slots : s.storeLongName.slots = s.slots := by unfold State.storeLongName; split <;> rfl
@[simp] theorem State.storeLongName_activeSlots : s.storeLongName.activeSlots = s.activeSlots := by unfold State.storeLongName; split <;> rfl
@[simp] theorem State.storeLongName_ua : s.storeLongName.ua = s.ua := by unfold State.storeLongName; split <;> rfl
@[simp] theorem State.storeLongName_lockValid : s.storeLongName.lockValid = s.lockValid := by unfold State.storeLongName; split <;> rfl
@[simp] theorem State.storeLongName_lockAddr : s.storeLongName.lockAddr = s.lockAddr := by unfold State.storeLongName; split <;> rfl
@[simp] theorem State.storeLongName_seq : s.storeLongName.seq = s.seq := by unfold State.storeLongName; split <;> rfl
@[simp] theorem State.storeLongName_raw : s.storeLongName.raw = s.raw := by unfold State.storeLongName; split <;> rfl
@[simp] theorem State.storeLongName_rawLen : s.storeLongName.rawLen = s.rawLen := by unfold State.storeLongName; split <;> rfl
@[simp] theorem State.storeLongName_rxSrc : s.storeLongName.rxSrc = s.rxSrc := by unfold State.storeLongName; split <;> rfl
@[simp] theorem State.storeLongName_nodeAddr : s.storeLongName.nodeAddr = s.nodeAddr := by unfold State.storeLongName; split <;> rfl
@[simp] theorem State.storeLongName_bcastValid : s.storeLongName.bcastValid = s.bcastValid := by unfold State.storeLongName; split <;> rfl
@[simp] theorem State.storeLongName_bcastAddr : s.storeLongName.bcastAddr = s.bcastAddr := by unfold State.storeLongName; split <;> rfl
@[simp] theorem State.storeLongName_shortName : s.storeLongName.shortName = s.shortName := by unfold State.storeLongName; split <;> rfl
@[simp] theorem State.storeLongName_ret : s.storeLongName.ret = s.ret := by unfold State.storeLongName; split <;> rfl
@[simp] theorem State.storeLongName_txDest : s.storeLongName.txDest = s.txDest := by unfold State.storeLongName; split <;> rfl
@[simp] theorem State.storeLongName_slotsOut : s.storeLongName.slotsOut = s.slotsOut := by unfold State.storeLongName; split <;> rfl
@[simp] theorem State.storeLongName_par : s.storeLongName.par = s.par := by unfold State.storeLongName; split <;> rfl
@[simp] theorem State.storeLongName_port : s.storeLongName.port = s.port := by unfold State.storeLongName; split <;> rfl

@[simp] theorem State.cancelMerge_slots : s.cancelMerge.slots = s.slots := by unfold State.cancelMerge; split <;> rfl
@[simp] theorem State.cancelMerge_activeSlots : s.cancelMerge.activeSlots = s.activeSlots := by unfold State.cancelMerge; split <;> rfl
@[simp] theorem State.cancelMerge_ua : s.cancelMerge.ua = s.ua := by unfold State.cancelMerge; split <;> rfl
@[simp] theorem State.cancelMerge_lockAddr : s.cancelMerge.lockAddr = s.lockAddr := by unfold State.cancelMerge; split <;> rfl
@[simp] theorem State.cancelMerge_seq : s.cancelMerge.seq = s.seq := by unfold State.cancelMerge; split <;> rfl
@[simp] theorem State.cancelMerge_raw : s.cancelMerge.raw = s.raw := by unfold State.cancelMerge; split <;> rfl
@[simp] theorem State.cancelMerge_rawLen : s.cancelMerge.rawLen = s.rawLen := by unfold State.cancelMerge; split <;> rfl
@[simp] theorem State.cancelMerge_rxSrc : s.cancelMerge.rxSrc = s.rxSrc := by unfold State.cancelMerge; split <;> rfl
@[simp] theorem State.cancelMerge_nodeAddr : s.cancelMerge.nodeAddr = s.nodeAddr := by unfold State.cancelMerge; split <;> rfl
@[simp] theorem State.cancelMerge_bcastValid : s.cancelMerge.bcastValid = s.bcastValid := by unfold State.cancelMerge; split <;> rfl
@[simp] theorem State.cancelMerge_bcastAddr : s.cancelMerge.bcastAddr = s.bcastAddr := by unfold State.cancelMerge; split <;> rfl
@[simp] theorem State.cancelMerge_shortName : s.cancelMerge.shortName = s.shortName := by unfold State.cancelMerge; split <;> rfl
@[simp] theorem State.cancelMerge_longName : s.cancelMerge.longName = s.longName := by unfold State.cancelMerge; split <;> rfl
@[simp] theorem State.cancelMerge_ret : s.cancelMerge.ret = s.ret := by unfold State.cancelMerge; split <;> rfl
@[simp] theorem State.cancelMerge_txDest : s.cancelMerge.txDest = s.txDest := by unfold State.cancelMerge; split <;> rfl
@[simp] theorem State.cancelMerge_slotsOut : s.cancelMerge.slotsOut = s.slotsOut := by unfold State.cancelMerge; split <;> rfl
@[simp] theorem State.cancelMerge_par : s.cancelMerge.par = s.par := by unfold State.cancelMerge; split <;> rfl
@[simp] theorem State.cancelMerge_port : s.cancelMerge.port = s.port := by unfold State.cancelMerge; split <;> rfl

@[simp] theorem State.configure_slots : s.configure.slots = s.slots := by simp [State.configure]
@[simp] theorem State.configure_activeSlots : s.configure.activeSlots = s.activeSlots := by simp [State.configure]
@[simp] theorem State.configure_lockAddr : s.configure.lockAddr = s.lockAddr := by simp [State.configure]
@[simp] theorem State.configure_seq : s.configure.seq = s.seq := by simp [State.configure]
@[simp] theorem State.configure_raw : s.configure.raw = s.raw := by simp [State.configure]
@[simp] theorem State.configure_rawLen : s.configure.rawLen = s.rawLen := by simp [State.configure]
@[simp] theorem State.configure_rxSrc : s.configure.rxSrc = s.rxSrc := by simp [State.configure]
@[simp] theorem State.configure_nodeAddr : s.configure.nodeAddr = s.nodeAddr := by simp [State.configure]
@[simp] theorem State.configure_bcastValid : s.configure.bcastValid = s.bcastValid := by simp [State.configure]
@[simp] theorem State.configure_bcastAddr : s.configure.bcastAddr = s.bcastAddr := by simp [State.configure]
@[simp] theorem State.configure_ret : s.configure.ret = s.ret := by simp [State.configure]
@[simp] theorem State.configure_txDest : s.configure.txDest = s.txDest := by simp [State.configure]
@[simp] theorem State.configure_slotsOut : s.configure.slotsOut = s.slotsOut := by simp [State.configure]
@[simp] theorem State.configure_par : s.configure.par = s.par := by simp [State.configure]
@[simp] theorem State.configure_port : s.configure.port = s.port := by simp [State.configure]

end Sys2Proof.Machine
end

