-- ==== Sys2Proof/Laws/Operands.lean ====
section
/-! SUPPORT. What the operand forms compute, in numbers: bytes of a 16-bit value, the universe address's halves, configuration
bytes, the effective length, and the datagram header as DECODE reads it. -/

namespace Sys2Proof

theorem toNat_joinBytes (hi lo : Byte) : (joinBytes hi lo).toNat = 256 * hi.toNat + lo.toNat := by
  have := lo.isLt
  rw [joinBytes, BitVec.toNat_append, ← Nat.shiftLeft_add_eq_or_of_lt (by omega), Nat.shiftLeft_eq]
  omega

theorem toNat_hiByte (v : Half) : (hiByte v).toNat = v.toNat / 256 := by
  have := v.isLt
  simp only [hiByte, BitVec.extractLsb'_toNat, Nat.shiftRight_eq_div_pow]
  omega

theorem toNat_loByte (v : Half) : (loByte v).toNat = v.toNat % 256 := by
  simp only [loByte, BitVec.extractLsb'_toNat, Nat.shiftRight_eq_div_pow]
  omega

@[simp] theorem joinBytes_hiByte_loByte (v : Half) : joinBytes (hiByte v) (loByte v) = v := by
  apply BitVec.eq_of_toNat_eq
  rw [toNat_joinBytes, toNat_hiByte, toNat_loByte]
  omega

@[simp] theorem hiByte_joinBytes (hi lo : Byte) : hiByte (joinBytes hi lo) = hi := by
  apply BitVec.eq_of_toNat_eq
  have := lo.isLt
  rw [toNat_hiByte, toNat_joinBytes]
  omega

@[simp] theorem loByte_joinBytes (hi lo : Byte) : loByte (joinBytes hi lo) = lo := by
  apply BitVec.eq_of_toNat_eq
  have := lo.isLt
  rw [toNat_loByte, toNat_joinBytes]
  omega

@[simp] theorem Params.length_magic (p : Params) : p.magic.length = 8 := by simp [Params.magic]

@[simp] theorem length_headerBytes (p : Params) (op : Half) : (headerBytes p op).length = 10 := by simp [headerBytes]

namespace Machine

theorem toNat_joinAddress (sub uni : Nibble) : (joinAddress sub uni).toNat = 16 * sub.toNat + uni.toNat := by
  have := uni.isLt
  rw [joinAddress, BitVec.toNat_append, ← Nat.shiftLeft_add_eq_or_of_lt (by omega), Nat.shiftLeft_eq]
  omega

theorem toNat_subnetOf (ua : Byte) : (subnetOf ua).toNat = ua.toNat / 16 := by
  have := ua.isLt
  simp only [subnetOf, BitVec.extractLsb'_toNat, Nat.shiftRight_eq_div_pow]
  omega

theorem toNat_universeOf (ua : Byte) : (universeOf ua).toNat = ua.toNat % 16 := by
  simp only [universeOf, BitVec.extractLsb'_toNat, Nat.shiftRight_eq_div_pow]
  omega

theorem toNat_lowNibble (b : Byte) : (lowNibble b).toNat = b.toNat % 16 := by
  simp only [lowNibble, BitVec.extractLsb'_toNat, Nat.shiftRight_eq_div_pow]
  omega

@[simp] theorem subnetOf_joinAddress (sub uni : Nibble) : subnetOf (joinAddress sub uni) = sub := by
  apply BitVec.eq_of_toNat_eq
  have := uni.isLt
  rw [toNat_subnetOf, toNat_joinAddress]
  omega

@[simp] theorem universeOf_joinAddress (sub uni : Nibble) : universeOf (joinAddress sub uni) = uni := by
  apply BitVec.eq_of_toNat_eq
  have := uni.isLt
  rw [toNat_universeOf, toNat_joinAddress]
  omega

/-- Everything a configuration byte can mean (R79): below 0x80, the sentinel among them, nothing; from 0x80 up, the low nibble. -/
theorem decodeConfig_eq (c : Byte) :
    decodeConfig c = if c.toNat < 128 then .noChange else .setTo (lowNibble c) := by
  have hbit : c.getLsbD 7 = decide (128 ≤ c.toNat) := by
    have := c.isLt
    rw [BitVec.getLsbD, Nat.testBit_eq_decide_div_mod_eq]
    simp only [decide_eq_decide]
    omega
  unfold decodeConfig
  rw [hbit]
  have h7 : c = 0x7F ↔ c.toNat = 127 := by
    rw [← BitVec.toNat_inj]
    rfl
  simp only [h7]
  by_cases h : c.toNat < 128
  · simp [h, show ¬128 ≤ c.toNat by omega]
  · simp [h, show 128 ≤ c.toNat by omega, show c.toNat ≠ 127 by omega]

theorem effectiveLength_eq (lw rawLen : Nat) : effectiveLength lw rawLen = 2 * (min lw (min 512 (rawLen - 18)) / 2) := by
  simp only [effectiveLength, evenDown, slotCap, dataHdrLen]
  omega

theorem effectiveLength_le (lw rawLen : Nat) : effectiveLength lw rawLen ≤ 512 := by
  simp only [effectiveLength, evenDown, slotCap, dataHdrLen]
  omega

theorem State.dataLength_eq (s : State) : s.dataLength = s.payloadCount := by
  rw [State.dataLength, State.payloadCount, effectiveLength_eq, State.dataWireLength, toNat_joinBytes]

theorem State.payloadCount_le (s : State) : s.payloadCount ≤ 512 := by
  rw [← State.dataLength_eq]
  exact effectiveLength_le _ _

theorem State.payloadCount_le_rawLen (s : State) : s.payloadCount ≤ s.rawLen - 18 := by
  simp only [State.payloadCount]
  omega

theorem State.lockedOut_iff (s : State) : s.lockedOut = true ↔ s.LockedAgainst := by
  simp [State.lockedOut, State.LockedAgainst]

/-- Everything the header validator and the opcode read can answer on the datagram in `raw` (R102, R103, R104). -/
theorem decodeDatagram_header (s : State) :
    decodeDatagram s.par s.header =
      if s.rawLen < 10 then .error .shortHeader
      else if s.raw.readBytes 0 8 ≠ s.par.magic then .error .badMagic
      else .ok (datagramOfOpcode (joinBytes (s.raw.read 9) (s.raw.read 8))) := by
  unfold decodeDatagram State.header headerLen
  by_cases h : s.rawLen < 10
  · simp [h]
  · have hm : min 10 s.rawLen = 10 := by omega
    simp only [hm, Memory.length_readBytes, h, if_false, show ¬(10 : Nat) < 10 by omega]
    rw [Memory.take_readBytes _ _ (by omega), Memory.getD_readBytes _ _ (by omega), Memory.getD_readBytes _ _ (by omega)]

/-- A datagram in `raw` decodes to the kind its opcode names. -/
theorem State.decode_of_holds {s : State} {op : Half} (h : s.Holds op) :
    decodeDatagram s.par s.header = .ok (datagramOfOpcode op) := by
  obtain ⟨h1, h2, h3⟩ := h
  rw [decodeDatagram_header, if_neg (by omega), if_neg (by simp [h2])]
  congr 2
  apply BitVec.eq_of_toNat_eq
  rw [toNat_joinBytes]
  omega

/-- Whatever DECODE accepts is a datagram with some opcode. -/
theorem holds_of_decode {s : State} {d : Datagram} (h : decodeDatagram s.par s.header = .ok d) :
    ∃ op, s.Holds op ∧ d = datagramOfOpcode op := by
  rw [decodeDatagram_header] at h
  split at h
  · cases h
  · split at h
    · cases h
    · next h1 h2 =>
      refine ⟨joinBytes (s.raw.read 9) (s.raw.read 8), ⟨by omega, by simpa using h2, ?_⟩, ?_⟩
      · rw [toNat_joinBytes]
        omega
      · injection h with h
        exact h.symm

theorem State.holds_unique {s : State} {op op' : Half} (h : s.Holds op) (h' : s.Holds op') : op = op' := by
  apply BitVec.eq_of_toNat_eq
  have := h.2.2
  have := h'.2.2
  omega

theorem datagramOfOpcode_opcode (d : Datagram) (h : ∀ op, d = .other op → op ∉ knownOpcodes) :
    datagramOfOpcode d.opcode = d := by
  cases d with
  | other op =>
    have := h op rfl
    simp only [knownOpcodes, List.mem_cons, List.not_mem_nil, or_false, not_or] at this
    unfold datagramOfOpcode Datagram.opcode
    rw [if_neg this.1, if_neg this.2.1, if_neg this.2.2.1, if_neg this.2.2.2]
  | _ => decide

theorem opcode_datagramOfOpcode (op : Half) : (datagramOfOpcode op).opcode = op := by
  unfold datagramOfOpcode
  split
  · next h => exact h.symm
  · split
    · next h => exact h.symm
    · split
      · next h => exact h.symm
      · split
        · next h => exact h.symm
        · rfl

end Machine

end Sys2Proof
end

