-- ==== Sys2Proof/Laws/Ops.lean ====
section
/-! SUPPORT. What the shared operations and the two datagram arms can do, said once each, for the provers to cite instead of
unfolding them. -/

namespace Sys2Proof.Machine

theorem State.respond_eq_showing (s : State) (r : Half) : s.respond r = s.showing r := rfl

theorem State.showing_showing (s : State) (r q : Half) : (s.showing r).showing q = s.showing q := rfl

theorem State.writeSlot_slots (s : State) (j : Nat) (v : Byte) :
    (s.writeSlot j v).slots = if 1 ≤ j ∧ j ≤ 512 then s.slots.write j v else s.slots := by
  unfold State.writeSlot SlotIndex slotCap
  split <;> rfl

theorem State.writeSlot_outside {s : State} {j : Nat} (v : Byte) (h : j = 0 ∨ 512 < j) : s.writeSlot j v = s :=
  if_neg fun hj => by
    have h1 : 1 ≤ j := hj.1
    have h2 : j ≤ 512 := hj.2
    omega

theorem State.readSlot_eq (s : State) (j : Nat) :
    s.readSlot j = if j = 0 ∨ 512 < j then 0x00 else s.slots.read j := by
  split
  · next h =>
    refine if_neg fun hj => ?_
    have h1 : 1 ≤ j := hj.1
    have h2 : j ≤ 512 := hj.2
    omega
  · next h =>
    refine if_pos ⟨?_, ?_⟩
    · omega
    · show j ≤ 512
      omega

theorem State.applyUniverse_ua (s : State) (c : Byte) :
    (s.applyUniverse c).ua = if c.toNat < 128 then s.ua else joinAddress (subnetOf s.ua) (lowNibble c) := by
  unfold State.applyUniverse
  rw [decodeConfig_eq]
  split <;> next h => split at h <;> simp_all [State.setAddress]

theorem State.applySubnet_ua (s : State) (c : Byte) :
    (s.applySubnet c).ua = if c.toNat < 128 then s.ua else joinAddress (lowNibble c) (universeOf s.ua) := by
  unfold State.applySubnet
  rw [decodeConfig_eq]
  split <;> next h => split at h <;> simp_all [State.setAddress]

theorem State.storeShortName_shortName (s : State) :
    s.storeShortName.shortName =
      if s.raw.read s.par.adShortName = 0x00 then s.shortName else s.raw.readBytes s.par.adShortName s.par.shortNameLen := by
  unfold State.storeShortName
  split <;> simp_all [State.addressShortName]

theorem State.storeLongName_longName (s : State) :
    s.storeLongName.longName =
      if s.raw.read s.par.adLongName = 0x00 then s.longName else s.raw.readBytes s.par.adLongName s.par.longNameLen := by
  unfold State.storeLongName
  split <;> simp_all [State.addressLongName]

theorem State.cancelMerge_lockValid (s : State) :
    s.cancelMerge.lockValid = (s.lockValid && s.raw.read s.par.adCommand != 0x01) := by
  unfold State.cancelMerge State.addressCommand
  split <;> simp_all [State.releaseLock]

/-! The ADDRESS arm's effect, field by field; the fields not named here are in `Laws/State.lean`. -/

theorem State.configure_shortName (s : State) :
    s.configure.shortName =
      if s.raw.read s.par.adShortName = 0x00 then s.shortName else s.raw.readBytes s.par.adShortName s.par.shortNameLen := by
  simp [State.configure, State.storeShortName_shortName]

theorem State.configure_longName (s : State) :
    s.configure.longName =
      if s.raw.read s.par.adLongName = 0x00 then s.longName else s.raw.readBytes s.par.adLongName s.par.longNameLen := by
  simp [State.configure, State.storeLongName_longName]

theorem State.configure_lockValid (s : State) :
    s.configure.lockValid = (s.lockValid && s.raw.read s.par.adCommand != 0x01) := by
  simp [State.configure, State.cancelMerge_lockValid]

theorem State.configure_ua (s : State) :
    s.configure.ua = joinAddress
      (if (s.raw.read s.par.adSubnet).toNat < 128 then subnetOf s.ua else lowNibble (s.raw.read s.par.adSubnet))
      (if (s.raw.read s.par.adUniverse).toNat < 128 then universeOf s.ua else lowNibble (s.raw.read s.par.adUniverse)) := by
  have hjoin : joinAddress (subnetOf s.ua) (universeOf s.ua) = s.ua := by
    apply BitVec.eq_of_toNat_eq
    rw [toNat_joinAddress, toNat_subnetOf, toNat_universeOf]
    omega
  simp only [State.configure, State.cancelMerge_ua, State.applySubnet_ua, State.applyUniverse_ua, State.addressUniverse,
    State.addressSubnet, State.storeLongName_raw, State.storeLongName_par,
    State.storeShortName_raw, State.storeShortName_par, State.storeLongName_ua, State.storeShortName_ua]
  split <;> split <;> simp [hjoin]

/-! The bytes of a DATA datagram and of a reply. -/

@[simp] theorem State.length_dataFixedBytes (s : State) : s.dataFixedBytes.length = 18 := by
  simp [State.dataFixedBytes, bigEndian]

@[simp] theorem State.length_dataDatagram (s : State) : s.dataDatagram.length = 18 + s.activeSlots.toNat := by
  simp [State.dataDatagram]

theorem State.dataFixedBytes_eq (s : State) :
    s.dataFixedBytes = s.par.magic ++ [0x00, 0x50, hiByte s.par.protVer, loByte s.par.protVer, s.seq, 0x00, s.ua, 0x00,
      hiByte (s.activeSlots.setWidth 16), loByte (s.activeSlots.setWidth 16)] := by
  simp [State.dataFixedBytes, headerBytes, bigEndian, Datagram.opcode, loByte, hiByte]

/-- The bytes of a DATA datagram after the magic, by their offset. -/
theorem State.getD_dataFixedBytes (s : State) (k : Nat) :
    s.dataFixedBytes.getD (8 + k) 0 = [0x00, 0x50, hiByte s.par.protVer, loByte s.par.protVer, s.seq, 0x00, s.ua, 0x00,
      hiByte (s.activeSlots.setWidth 16), loByte (s.activeSlots.setWidth 16)].getD k 0 := by
  rw [State.dataFixedBytes_eq, List.getD_append_right _ _ _ _ (by simp)]
  simp

theorem State.getD_dataDatagram_payload (s : State) {k : Nat} (h : k < s.activeSlots.toNat) :
    s.dataDatagram.getD (18 + k) 0 = s.slots.read (1 + k) := by
  rw [State.dataDatagram, List.getD_append_right _ _ _ _ (by simp), State.length_dataFixedBytes, Nat.add_sub_cancel_left,
    Memory.getD_readBytes _ _ h]

theorem canonical_storeParts {m : Memory} {parts : List (Nat × List Byte)} (hm : m.Canonical) :
    (storeParts m parts).Canonical := by
  induction parts generalizing m with
  | nil => exact hm
  | cons q parts ih => exact ih (Memory.canonical_writeBytes hm)

theorem within_storeParts {m : Memory} {hi : Nat} {parts : List (Nat × List Byte)} (hm : m.Within 0 hi)
    (h : ∀ q ∈ parts, q.1 + q.2.length ≤ hi) : (storeParts m parts).Within 0 hi := by
  induction parts generalizing m with
  | nil => exact hm
  | cons q parts ih =>
    exact ih (Memory.within_writeBytes hm (Nat.zero_le _) (h q (by simp))) fun r hr => h r (by simp [hr])

/-- A read outside every part. -/
theorem read_storeParts_outside {m : Memory} {b : Nat} {parts : List (Nat × List Byte)}
    (h : ∀ q ∈ parts, b < q.1 ∨ q.1 + q.2.length ≤ b) : (storeParts m parts).read b = m.read b := by
  induction parts generalizing m with
  | nil => rfl
  | cons q parts ih =>
    have := ih (m := m.writeBytes q.1 q.2) fun r hr => h r (by simp [hr])
    exact this.trans (Memory.read_writeBytes_outside (h q (by simp)))

/-- A part that no later part overlaps reads back as it was stored. -/
theorem readBytes_storeParts {m : Memory} {before after : List (Nat × List Byte)} {a : Nat} {vs : List Byte}
    (hm : m.Canonical) (h : ∀ q ∈ after, a + vs.length ≤ q.1 ∨ q.1 + q.2.length ≤ a) :
    (storeParts m (before ++ (a, vs) :: after)).readBytes a vs.length = vs := by
  have hb := canonical_storeParts (parts := before) hm
  have key : storeParts m (before ++ (a, vs) :: after) = storeParts ((storeParts m before).writeBytes a vs) after := by
    simp [storeParts]
  rw [key]
  refine (Memory.readBytes_congr (n := (storeParts m before).writeBytes a vs) (b := a) fun j hj => ?_).trans
    (Memory.readBytes_writeBytes hb)
  refine read_storeParts_outside fun q hq => ?_
  have := h q hq
  omega

/-! DECODE and its DATA arm. -/

/-- Every outcome of the DATA arm. -/
theorem execDgData_eq (s : State) :
    execDgData s = .next (if s.rawLen < 18 then s.showing 0x0000
      else if s.ReachesArbiter ∧ ¬s.LockedAgainst then (s.acceptData s.payloadCount).showing 0x5000
      else s.showing 0x5000) := by
  have hlock := s.lockedOut_iff
  unfold execDgData State.dataVerdict State.ReachesArbiter
  rw [State.dataLength_eq]
  by_cases h1 : s.rawLen < 18
  · simp [dataHdrLen, h1, State.respond_eq_showing, codeNop]
  · by_cases h2 : s.raw.read 14 = s.ua
    · by_cases h3 : s.payloadCount = 0
      · simp [dataHdrLen, State.dataUniverse, h1, h2, h3, State.respond_eq_showing, codeData]
      · by_cases h4 : s.LockedAgainst
        · simp [dataHdrLen, State.dataUniverse, h1, h2, h3, h4, hlock.mpr h4, State.respond_eq_showing, codeData]
        · have h5 : s.lockedOut = false := by
            rw [Bool.eq_false_iff]
            exact fun h => h4 (hlock.mp h)
          simp [dataHdrLen, State.dataUniverse, h1, h2, h3, h4, h5, State.respond_eq_showing, codeData,
            show 18 ≤ s.rawLen by omega]
    · simp [dataHdrLen, State.dataUniverse, h1, h2, State.respond_eq_showing, codeData]

theorem execDgAddress_eq (s : State) :
    execDgAddress s = .next (if s.rawLen < s.par.addrMinLen then s.showing 0x0000 else s.configure.showing 0x6000) := by
  unfold execDgAddress
  split <;> rfl

/-- DECODE on a datagram runs its arm. -/
theorem execDecode_of_holds {s : State} {op : Half} (h : s.Holds op) :
    execDecode s = runDatagram (datagramOfOpcode op) s := by
  simp only [execDecode, State.decode_of_holds h]

/-- DECODE on anything else is NOP. -/
theorem execDecode_of_not_holds {s : State} (h : ∀ op, ¬s.Holds op) : execDecode s = .next (s.showing 0x0000) := by
  unfold execDecode
  split
  · rfl
  · next d hd =>
    obtain ⟨op, hop, _⟩ := holds_of_decode hd
    exact absurd hop (h op)

/-- Every case of DECODE: no datagram, or a datagram with some opcode, whose arm it runs. -/
theorem execDecode_cases (s : State) :
    ((∀ op, ¬s.Holds op) ∧ execDecode s = .next (s.showing 0x0000)) ∨
    ∃ op, s.Holds op ∧ execDecode s = runDatagram (datagramOfOpcode op) s := by
  by_cases h : ∃ op, s.Holds op
  · obtain ⟨op, hop⟩ := h
    exact .inr ⟨op, hop, execDecode_of_holds hop⟩
  · have h' : ∀ op, ¬s.Holds op := fun op hop => h ⟨op, hop⟩
    exact .inl ⟨h', execDecode_of_not_holds h'⟩

end Sys2Proof.Machine
end

