-- ==== Sys2Proof/Laws/PerInstr.lean ====
section
/-! SUPPORT. A family of statements per instruction: the encoding matches the instruction's row of `spec/opcode_table.json` under
the row's mask. -/

namespace Sys2Proof.Laws.TableRow

open Sys2Proof Sys2Proof.Machine

/-- The table's word of the encoding, masked, is the row's match, for all parameters. -/
def Statement (i : Instr) : Prop :=
  ∀ p : Params, (encode p i).tableWord &&& i.tableRow.2 = i.tableRow.1

theorem and_codeMask (code : BitVec 4) : code.toNat &&& 0xF = code.toNat := by
  revert code
  decide

/-- A command's word is its code, and its row's mask keeps all of it. -/
theorem command {i : Instr} (code : BitVec 4) (h : ∀ p, ∃ t, encode p i = .command t ∧ t.cmd = code)
    (hrow : i.tableRow = (code.toNat, 0xF)) : Statement i := by
  intro p
  obtain ⟨t, ht, rfl⟩ := h p
  rw [ht, hrow]
  exact and_codeMask t.cmd

/-- A datagram's word is its opcode. -/
theorem tableWord_headerBytes (p : Params) (op : Half) : (Wire.datagram (headerBytes p op)).tableWord = op.toNat := by
  have h8 : (headerBytes p op).getD 8 0 = loByte op := by
    rw [headerBytes, List.getD_append_right _ _ _ _ (by simp)]
    simp
  have h9 : (headerBytes p op).getD 9 0 = hiByte op := by
    rw [headerBytes, List.getD_append_right _ _ _ _ (by simp)]
    simp
  simp only [Wire.tableWord, h8, h9, toNat_loByte, toNat_hiByte]
  omega

theorem datagram {i : Instr} (op : Half) (h : ∀ p, encode p i = .datagram (headerBytes p op))
    (hc : op.toNat &&& i.tableRow.2 = i.tableRow.1) : Statement i := by
  intro p
  rw [h p, tableWord_headerBytes]
  exact hc

theorem rxload (src : Addr) (bytes : List Byte) : Statement (.rxload src bytes) := command 0x0 (fun _ => ⟨_, rfl, rfl⟩) rfl
theorem decode : Statement .decode := command 0x1 (fun _ => ⟨_, rfl, rfl⟩) rfl
theorem encData (dest : Addr) : Statement (.encData dest) := command 0x2 (fun _ => ⟨_, rfl, rfl⟩) rfl
theorem encPollReply (pollSrc : Addr) : Statement (.encPollReply pollSrc) := command 0x3 (fun _ => ⟨_, rfl, rfl⟩) rfl
theorem setUniverse (u : Byte) : Statement (.setUniverse u) := command 0x4 (fun _ => ⟨_, rfl, rfl⟩) rfl
theorem setSubnetUniverse (sub u : Byte) : Statement (.setSubnetUniverse sub u) := command 0x5 (fun _ => ⟨_, rfl, rfl⟩) rfl
theorem setUniverseAddress (c : Byte) : Statement (.setUniverseAddress c) := command 0x6 (fun _ => ⟨_, rfl, rfl⟩) rfl
theorem setSubnetAddress (c : Byte) : Statement (.setSubnetAddress c) := command 0x7 (fun _ => ⟨_, rfl, rfl⟩) rfl
theorem getUniverse : Statement .getUniverse := command 0x8 (fun _ => ⟨_, rfl, rfl⟩) rfl
theorem getSubnetUniverse : Statement .getSubnetUniverse := command 0x9 (fun _ => ⟨_, rfl, rfl⟩) rfl
theorem setNumSlots (n : Half) : Statement (.setNumSlots n) := command 0xA (fun _ => ⟨_, rfl, rfl⟩) rfl
theorem getNumSlots : Statement .getNumSlots := command 0xB (fun _ => ⟨_, rfl, rfl⟩) rfl
theorem setSlot (idx : Half) (v : Byte) : Statement (.setSlot idx v) := command 0xC (fun _ => ⟨_, rfl, rfl⟩) rfl
theorem getSlot (idx : Half) : Statement (.getSlot idx) := command 0xD (fun _ => ⟨_, rfl, rfl⟩) rfl
theorem readSlots : Statement .readSlots := command 0xE (fun _ => ⟨_, rfl, rfl⟩) rfl
theorem reservedF : Statement .reservedF := command 0xF (fun _ => ⟨_, rfl, rfl⟩) rfl
theorem dgPoll : Statement .dgPoll := datagram 0x2000 (fun _ => rfl) rfl
theorem dgPollReply : Statement .dgPollReply := datagram 0x2100 (fun _ => rfl) rfl
theorem dgData : Statement .dgData := datagram 0x5000 (fun _ => rfl) rfl
theorem dgAddress : Statement .dgAddress := datagram 0x6000 (fun _ => rfl) rfl
theorem dgOther (op : Half) : Statement (.dgOther op) := datagram op (fun _ => rfl) (by simp [Instr.tableRow])

end Sys2Proof.Laws.TableRow
end

