-- ==== Sys2Proof/Laws/Step.lean ====
section
/-! SUPPORT. What a step can be: idling, a reset, or a command's instruction. -/

namespace Sys2Proof.Machine

theorem takeRequest_eq_none {s : State} : s.takeRequest = none ↔ s.port = [] := by
  unfold State.takeRequest
  split <;> simp_all

theorem takeRequest_eq_some {s : State} {r : Request} {s' : State} :
    s.takeRequest = some (r, s') ↔ ∃ rest, s.port = r :: rest ∧ s' = { s with port := rest } := by
  unfold State.takeRequest
  split
  · simp_all
  · next q rest h =>
    simp only [Option.some.injEq, Prod.mk.injEq, h, List.cons.injEq]
    constructor
    · rintro ⟨rfl, rfl⟩
      exact ⟨rest, ⟨rfl, rfl⟩, rfl⟩
    · rintro ⟨rest', ⟨rfl, rfl⟩, rfl⟩
      exact ⟨rfl, rfl⟩

/-- Every case of a step. -/
theorem step_cases (s : State) :
    (s.port = [] ∧ step s = .next s) ∨
    (∃ nodeAddr bcast rest, s.port = .reset nodeAddr bcast :: rest ∧
      step s = .next (State.resetOf s.par nodeAddr bcast rest)) ∨
    ∃ t rest, s.port = .command t :: rest ∧ step s = exec (decodeCommand t) { s with port := rest } := by
  unfold step
  split
  · next h => exact .inl ⟨takeRequest_eq_none.mp h, rfl⟩
  · next h =>
    obtain ⟨rest, hp, rfl⟩ := takeRequest_eq_some.mp h
    exact .inr (.inl ⟨_, _, rest, hp, rfl⟩)
  · next h =>
    obtain ⟨rest, hp, rfl⟩ := takeRequest_eq_some.mp h
    exact .inr (.inr ⟨_, rest, hp, rfl⟩)

/-- A run goes on from the state a step answers. -/
theorem run_succ {s t : State} {n : Nat} (h : step s = .next t) :
    Host.Core.run Sys2Proof.core (n + 1) s = Host.Core.run Sys2Proof.core n t := by
  have h' : Sys2Proof.core.step s = .next t := h
  simp only [Host.Core.run, h']

theorem run_zero (s : State) : Host.Core.run Sys2Proof.core 0 s = .next s := rfl

/-- The commands reach DECODE and the owner's operations only: a datagram row runs as an arm of DECODE. -/
theorem decodeCommand_ne_datagram (t : Transaction) :
    decodeCommand t ≠ .dgPoll ∧ decodeCommand t ≠ .dgPollReply ∧ decodeCommand t ≠ .dgData ∧
    decodeCommand t ≠ .dgAddress ∧ ∀ op, decodeCommand t ≠ .dgOther op := by
  unfold decodeCommand
  split <;> simp

end Sys2Proof.Machine
end

