-- ==== Sys2Proof/Machine/Text.lean ====
section
/-! DEFINITION. The textual syntax of commands (`30_encoding.md` rule R86). Where R86 leaves a choice of spelling (decimal or
hexadecimal, dotted quad or `0x` form) one is taken (log 26). -/

namespace Sys2Proof.Machine

/-- `n` in hexadecimal with at least `width` capital digits. -/
def hexDigits (width n : Nat) : String :=
  let ds := (Nat.toDigits 16 n).map Char.toUpper
  String.ofList (List.replicate (width - ds.length) '0' ++ ds)

/-- `n` in decimal. -/
def decimal (n : Nat) : String := String.ofList (Nat.toDigits 10 n)

/-- An address as a dotted quad (R86, R88). -/
def dottedQuad (a : Addr) : String := ".".intercalate ((addrBytes a).map fun b => decimal b.toNat)

/-- A byte string as hex pairs separated by spaces (R86). -/
def hexPairs (bytes : List Byte) : String := " ".intercalate (bytes.map fun b => hexDigits 2 b.toNat)

/-- A byte as `0x` and two digits. -/
def hexByte (b : Byte) : String := "0x" ++ hexDigits 2 b.toNat

/-- The command line of an instruction (R86); `none` for a datagram row and the reserved code, which have no mnemonic there. -/
def commandText : Instr → Option String
  | .rxload src bytes => some ("RXLOAD src=" ++ dottedQuad src ++ " bytes=" ++ hexPairs bytes)
  | .decode => some "DECODE"
  | .encData dest => some ("ENC_DATA dest=" ++ dottedQuad dest)
  | .encPollReply pollSrc => some ("ENC_POLL_REPLY pollSrc=" ++ dottedQuad pollSrc)
  | .setUniverse u => some ("SET_UNIVERSE u=" ++ decimal u.toNat)
  | .setSubnetUniverse sub u => some ("SET_SUBNET_UNIVERSE s=" ++ decimal sub.toNat ++ " u=" ++ decimal u.toNat)
  | .setUniverseAddress c => some ("SET_UNIVERSE_ADDRESS u=" ++ hexByte c)
  | .setSubnetAddress c => some ("SET_SUBNET_ADDRESS s=" ++ hexByte c)
  | .getUniverse => some "GET_UNIVERSE"
  | .getSubnetUniverse => some "GET_SUBNET_UNIVERSE"
  | .setNumSlots n => some ("SET_NUM_SLOTS n=" ++ decimal n.toNat)
  | .getNumSlots => some "GET_NUM_SLOTS"
  | .setSlot idx v => some ("SET_SLOT i=" ++ decimal idx.toNat ++ " v=" ++ hexByte v)
  | .getSlot idx => some ("GET_SLOT i=" ++ decimal idx.toNat)
  | .readSlots => some "READ_SLOTS"
  | .reservedF => none
  | .dgPoll => none
  | .dgPollReply => none
  | .dgData => none
  | .dgAddress => none
  | .dgOther _ => none

/-- A command line with the result it returned, written after `->` (R86). -/
def resultText (line : String) (ret : Half) : String := line ++ " -> 0x" ++ hexDigits 4 ret.toNat

end Sys2Proof.Machine
end

