-- ==== Sys2Proof/Tests/Slice0.lean ====
section
/-! SUPPORT. The model's own tests: ill-formed terms refused, words written out from the spec's encodings, single steps whose
expected results are the vectors of `95_test_vectors.md` and the examples of the rules, and for every statement with hypotheses
a state and operands that meet them together. -/

namespace Sys2Proof.Tests

set_option maxRecDepth 20000

open Sys2Proof Sys2Proof.Machine

/-! ### States and datagrams the tests are about -/

/-- The state `i` leaves. -/
def after (i : Instr) (s : State) : State :=
  match exec i s with
  | .next t => t
  | .fault _ => s
  | .refused _ => s

/-- The state one step leaves. -/
def afterStep (s : State) : State :=
  match step s with
  | .next t => t
  | .fault _ => s
  | .refused _ => s

/-- X = 10.0.0.1 of `95_test_vectors.md`. -/
def addrX : Addr := 0x0A000001

/-- Y = 10.0.0.2. -/
def addrY : Addr := 0x0A000002

/-- Z = 10.0.0.99. -/
def addrZ : Addr := 0x0A000063

/-- HDR of `95_test_vectors.md`. -/
def hdr : List Byte := [0x41, 0x72, 0x74, 0x2D, 0x4E, 0x65, 0x74, 0x00]

/-- d1 of program P1: DATA on universe 0x00, wire length 4, payload 0A 14 1E 28. -/
def d1 : List Byte := hdr ++ [0x00, 0x50, 0x00, 0x0E, 0x05, 0x00, 0x00, 0x00, 0x00, 0x04, 0x0A, 0x14, 0x1E, 0x28]

/-- A DATA datagram on universe 0x00 with the wire length `hi lo`. -/
def dataBytes (hi lo : Byte) (payload : List Byte) : List Byte :=
  hdr ++ [0x00, 0x50, 0x00, 0x0E, 0x00, 0x00, 0x00, 0x00, hi, lo] ++ payload

/-- `l` and zeros up to length `n`. -/
def pad (n : Nat) (l : List Byte) : List Byte := l ++ List.replicate (n - l.length) 0x00

/-- ADDR(sn, ln, u, s, c) of `95_test_vectors.md` section 2.4: 107 bytes. -/
def addressBytes (sn ln : List Byte) (u s c : Byte) : List Byte :=
  hdr ++ [0x00, 0x60, 0x00, 0x0E, 0x00, 0x00] ++ pad 18 sn ++ pad 64 ln ++
    [0x7F, 0x7F, 0x7F, 0x7F, u, 0x7F, 0x7F, 0x7F, s, 0x00, c]

/-- `s` with a received datagram in `raw`. -/
def holding (s : State) (src : Addr) (bytes : List Byte) : State :=
  { s with raw := Memory.writeBytes [] 0 bytes, rawLen := bytes.length, rxSrc := src }

/-- The fresh engine with a received datagram in `raw`. -/
def freshHolding (src : Addr) (bytes : List Byte) : State := holding State.reset src bytes

/-- `s` locked to an address. -/
def lockedTo (s : State) (a : Addr) : State := { s with lockValid := true, lockAddr := a }

/-- The fresh engine on universe 0x21, where the vectors of sections 2.4 and 2.5 start. -/
def at21 : State := { State.reset with ua := 0x21 }

/-- The fresh engine with `n` slots in use, `bytes` in slots 1 up. -/
def withSlots (n : BitVec 10) (bytes : List Byte) : State :=
  { State.reset with slots := Memory.writeBytes [] 1 bytes, activeSlots := n }

theorem fresh_valid : Params.fresh.Valid := by decide

/-- The invariant of a concrete state with the fresh parameters, from what `decide` can check of it. -/
theorem wf_of_fresh {s : State} (hp : s.par = Params.fresh)
    (h : s.slots.Canonical ∧ s.slots.Within 1 513 ∧ s.raw.Canonical ∧ s.raw.Within 0 530 ∧ 1 ≤ s.activeSlots.toNat ∧
      s.activeSlots.toNat ≤ 512 ∧ s.rawLen ≤ 530 ∧ s.shortName.length = 18 ∧ s.longName.length = 64 ∧
      (s.bcastValid = false → s.bcastAddr = 0)) : s.Wf := by
  obtain ⟨h1, h2, h3, h4, h5, h6, h7, h8, h9, h10⟩ := h
  exact
    { params := hp ▸ fresh_valid, slotsForm := h1, slotsRange := h2, rawForm := h3, rawRange := hp ▸ h4, activePos := h5,
      activeMax := h6, rawLenMax := hp ▸ h7, shortLength := hp ▸ h8, longLength := hp ▸ h9, noBcast := h10 }

/-! ### Well-formedness -/

theorem test_dg_other_of_known_opcode_is_ill_formed :
    (Instr.dgOther 0x2000).wellFormed = false ∧ (Instr.dgOther 0x2100).wellFormed = false ∧
    (Instr.dgOther 0x5000).wellFormed = false ∧ (Instr.dgOther 0x6000).wellFormed = false := by decide

theorem test_well_formed_terms :
    (Instr.dgOther 0x9700).wellFormed = true ∧ (Instr.dgOther 0x0000).wellFormed = true ∧
    (Instr.setSlot 0xFFFF 0xFF).wellFormed = true ∧ (Instr.rxload 0 []).wellFormed = true := by decide

/-! ### Decoding: words written out from R84 (`cmd`, `a`, `b`, `addr`, `bytes`), R71 and R74 -/

/-- `40_decode_dispatch.md` R100's example and V-E1's and V-R1's encodings. -/
theorem test_decode_datagram_commands :
    decodeCommand ⟨0x0, 0, 0, 0x0A000001, [0x41, 0x72]⟩ = .rxload 0x0A000001 [0x41, 0x72] ∧
    decodeCommand ⟨0x1, 0, 0, 0, []⟩ = .decode ∧
    decodeCommand ⟨0x2, 0, 0, 0x0A0000FF, []⟩ = .encData 0x0A0000FF ∧
    decodeCommand ⟨0x3, 0, 0, 0x0A000002, []⟩ = .encPollReply 0x0A000002 := by decide

/-- V-C9, V-C12, P4 steps 8 and 9, V-C14, V-C15; in SET_SUBNET_UNIVERSE `a[15:8]` is the subnet. -/
theorem test_decode_universe_commands :
    decodeCommand ⟨0x4, 0x0007, 0, 0, []⟩ = .setUniverse 0x07 ∧
    decodeCommand ⟨0x4, 0xAB15, 0, 0, []⟩ = .setUniverse 0x15 ∧
    decodeCommand ⟨0x5, 0x030A, 0, 0, []⟩ = .setSubnetUniverse 0x03 0x0A ∧
    decodeCommand ⟨0x6, 0x007F, 0, 0, []⟩ = .setUniverseAddress 0x7F ∧
    decodeCommand ⟨0x7, 0x0080, 0, 0, []⟩ = .setSubnetAddress 0x80 ∧
    decodeCommand ⟨0x8, 0, 0, 0, []⟩ = .getUniverse ∧
    decodeCommand ⟨0x9, 0, 0, 0, []⟩ = .getSubnetUniverse := by decide

/-- V-S2, V-S6, V-S7, V-S8, R194, V-S14. -/
theorem test_decode_slot_commands :
    decodeCommand ⟨0xA, 0x0201, 0, 0, []⟩ = .setNumSlots 513 ∧
    decodeCommand ⟨0xB, 0, 0, 0, []⟩ = .getNumSlots ∧
    decodeCommand ⟨0xC, 0x0003, 0xFF, 0, []⟩ = .setSlot 3 0xFF ∧
    decodeCommand ⟨0xD, 0x0200, 0, 0, []⟩ = .getSlot 512 ∧
    decodeCommand ⟨0xE, 0, 0, 0, []⟩ = .readSlots ∧
    decodeCommand ⟨0xF, 0x1234, 0x56, 0x789ABCDE, [0x01]⟩ = .reservedF := by decide

/-- V-H7, V-H10, V-D1, section 2.4's ADDR, V-H11 to V-H15: the opcode is little-endian and compared whole. -/
theorem test_decode_datagrams :
    decodeWire Params.fresh (.datagram (hdr ++ [0x00, 0x20])) = .ok .dgPoll ∧
    decodeWire Params.fresh (.datagram (hdr ++ [0x00, 0x21])) = .ok .dgPollReply ∧
    decodeWire Params.fresh (.datagram d1) = .ok .dgData ∧
    decodeWire Params.fresh (.datagram (addressBytes [] [] 0x85 0x7F 0x01)) = .ok .dgAddress ∧
    decodeWire Params.fresh (.datagram (hdr ++ [0x00, 0x00])) = .ok (.dgOther 0x0000) ∧
    decodeWire Params.fresh (.datagram (hdr ++ [0x50, 0x00])) = .ok (.dgOther 0x0050) ∧
    decodeWire Params.fresh (.datagram (hdr ++ [0x01, 0x50])) = .ok (.dgOther 0x5001) ∧
    decodeWire Params.fresh (.datagram (hdr ++ [0x00, 0x97])) = .ok (.dgOther 0x9700) ∧
    decodeWire Params.fresh (.datagram (hdr ++ [0xFF, 0xFF])) = .ok (.dgOther 0xFFFF) := by decide

/-- V-H2, V-H4, V-H5: too short, magic byte 7, magic byte 0. -/
theorem test_decode_rejects :
    decodeWire Params.fresh (.datagram (hdr ++ [0x00])) = .error .shortHeader ∧
    decodeWire Params.fresh (.datagram ([0x41, 0x72, 0x74, 0x2D, 0x4E, 0x65, 0x74, 0x01] ++ [0x00, 0x50])) = .error .badMagic ∧
    decodeWire Params.fresh (.datagram ([0x61, 0x72, 0x74, 0x2D, 0x4E, 0x65, 0x74, 0x00] ++ [0x00, 0x50])) =
      .error .badMagic := by decide

/-- The encodings P1, V-C12 and V-S8 write out, and V-H8's first ten bytes. -/
theorem test_encode :
    encode Params.fresh (.rxload addrX [0x41]) = .command ⟨0x0, 0, 0, 0x0A000001, [0x41]⟩ ∧
    encode Params.fresh (.setSubnetUniverse 3 10) = .command ⟨0x5, 0x030A, 0, 0, []⟩ ∧
    encode Params.fresh (.setSlot 512 0x7B) = .command ⟨0xC, 0x0200, 0x7B, 0, []⟩ ∧
    encode Params.fresh .dgPoll = .datagram [0x41, 0x72, 0x74, 0x2D, 0x4E, 0x65, 0x74, 0x00, 0x00, 0x20] := by decide

/-- Rows of `spec/opcode_table.json` by their numbers. -/
theorem test_decode_table_words :
    decodeTableWord 8 0x0 = some (.rxload 0 []) ∧ decodeTableWord 8 0xC = some (.setSlot 0 0) ∧
    decodeTableWord 8 0xF = some .reservedF ∧ decodeTableWord 16 0x2000 = some .dgPoll ∧
    decodeTableWord 16 0x2100 = some .dgPollReply ∧ decodeTableWord 16 0x5000 = some .dgData ∧
    decodeTableWord 16 0x6000 = some .dgAddress ∧ decodeTableWord 16 0x0000 = some (.dgOther 0x0000) := by decide

/-- R86's examples, written with the spellings of log 26. -/
theorem test_text :
    commandText (.rxload addrX (hdr ++ [0x00, 0x20])) =
      some "RXLOAD src=10.0.0.1 bytes=41 72 74 2D 4E 65 74 00 00 20" ∧
    (commandText .decode).map (resultText · 0x2000) = some "DECODE -> 0x2000" ∧
    commandText (.encData 0x0A0000FF) = some "ENC_DATA dest=10.0.0.255" ∧
    commandText (.setSlot 3 0xFF) = some "SET_SLOT i=3 v=0xFF" ∧
    (commandText (.getSlot 3)).map (resultText · 0x00FF) = some "GET_SLOT i=3 -> 0x00FF" := by decide

/-! ### Reset and the step -/

/-- `10_state.md` R34 with `95_test_vectors.md`'s fresh parameters. -/
theorem test_reset :
    State.reset.ua = 0x00 ∧ State.reset.lockValid = false ∧ State.reset.activeSlots = 512 ∧ State.reset.seq = 0x00 ∧
    State.reset.rawLen = 0 ∧ State.reset.rxSrc = 0 ∧ State.reset.nodeAddr = 0xC0A80132 ∧ State.reset.bcastValid = false ∧
    State.reset.slots.wf = true ∧ State.reset.raw.wf = true := by decide

/-- The word placed by `withFetchWord` is what the next step runs: GET_NUM_SLOTS (V-S6), and a POLL in `raw` (V-H7). -/
theorem test_fetch_word :
    (afterStep (State.reset.withFetchWord 8 0xB)).ret = 0x0200 ∧
    (afterStep (State.reset.withFetchWord 16 0x2000)).ret = 0x2000 := by decide

/-- R245: another reset between commands starts the state over, with its own construction inputs (R233). -/
theorem test_reset_request :
    let s := afterStep { lockedTo at21 addrX with port := [.reset 0x0A000009 (some 0x0A0000FF)] }
    s.ua = 0x00 ∧ s.lockValid = false ∧ s.nodeAddr = 0x0A000009 ∧ s.bcastValid = true ∧ s.bcastAddr = 0x0A0000FF := by
  decide

/-! ### RXLOAD and DECODE -/

/-- R100's example. -/
theorem test_rxload :
    let s := after (.rxload addrX (hdr ++ [0x00, 0x20, 0x00, 0x0E, 0x00, 0x00])) State.reset
    s.rawLen = 14 ∧ s.rxSrc = 0x0A000001 ∧ s.raw.read 9 = 0x20 := by decide

/-- V-H18: 600 bytes are cut at `RAW_CAP = 530`. -/
theorem test_rxload_truncates : (after (.rxload addrX (List.replicate 600 0xEE)) State.reset).rawLen = 530 := by
  decide

/-- V-H4, V-H5, V-H14, V-H16: NOP. -/
theorem test_decode_nop :
    (after .decode (freshHolding addrX ([0x41, 0x72, 0x74, 0x2D, 0x4E, 0x65, 0x74, 0x01] ++ d1.drop 8))).ret = 0x0000 ∧
    (after .decode (freshHolding addrX ([0x61] ++ d1.drop 1))).ret = 0x0000 ∧
    (after .decode (freshHolding addrX (hdr ++ [0x00, 0x97] ++ List.replicate 97 0x00))).ret = 0x0000 ∧
    (after .decode State.reset).ret = 0x0000 := by decide

/-- V-H7, V-H10, V-D1, V-A1. -/
theorem test_decode_codes :
    (after .decode (freshHolding addrX (hdr ++ [0x00, 0x20]))).ret = 0x2000 ∧
    (after .decode (freshHolding addrX (hdr ++ [0x00, 0x21]))).ret = 0x2100 ∧
    (after .decode (freshHolding addrX d1)).ret = 0x5000 ∧
    (after .decode (freshHolding addrZ (addressBytes [] [] 0x85 0x7F 0x01))).ret = 0x6000 := by decide

/-- V-H8, V-H9, V-H15: the POLL, POLL_REPLY and "other" arms answer and change nothing. -/
theorem test_answering_arms :
    after .dgPoll (lockedTo at21 addrX) = (lockedTo at21 addrX).showing 0x2000 ∧
    after .dgPollReply (lockedTo at21 addrX) = (lockedTo at21 addrX).showing 0x2100 ∧
    after (.dgOther 0xFFFF) (lockedTo at21 addrX) = (lockedTo at21 addrX).showing 0x0000 := by decide

/-! ### The DATA arm -/

/-- V-D1, and V-M2 (a shorter datagram of the holder leaves stale slots). -/
theorem test_data_applied :
    (let s := after .dgData (freshHolding addrX d1)
     s.ret = 0x5000 ∧ s.slots.readBytes 1 6 = [0x0A, 0x14, 0x1E, 0x28, 0x00, 0x00] ∧ s.activeSlots = 4 ∧
     s.lockValid = true ∧ s.lockAddr = addrX) ∧
    (let s := after .dgData (lockedTo (holding (withSlots 6 [1, 2, 3, 4, 5, 6]) addrX (dataBytes 0x00 0x02 [0xAA, 0xBB])) addrX)
     s.slots.readBytes 1 6 = [0xAA, 0xBB, 0x03, 0x04, 0x05, 0x06] ∧ s.activeSlots = 2 ∧ s.lockAddr = addrX) := by
  decide

/-- V-D4 (the subnet nibble differs), V-D5 (17 bytes), V-L2 (effective length 0), V-M6 (locked to address 0): not applied. -/
theorem test_data_not_applied :
    (let s := freshHolding addrX (d1.set 14 0x10); after .dgData s = s.showing 0x5000) ∧
    (let s := freshHolding addrX (d1.take 17); after .dgData s = s.showing 0x0000) ∧
    (let s := freshHolding addrX (dataBytes 0x00 0x01 [0x01]); after .dgData s = s.showing 0x5000) ∧
    (let s := lockedTo (freshHolding 0xFFFFFFFF (dataBytes 0x00 0x02 [3, 4])) 0x00000000
     after .dgData s = s.showing 0x5000) := by decide

/-- The effective lengths of V-L1 to V-L14, from `Lw` and `rawLen`. -/
theorem test_effective_length :
    [(0, 18), (1, 19), (2, 20), (3, 21), (5, 23), (511, 529), (512, 530), (513, 530), (600, 530), (65535, 530), (8, 22), (8, 23),
      (4, 26), (2, 19)].map (fun q => effectiveLength q.1 q.2) = [0, 0, 2, 2, 4, 510, 512, 512, 512, 512, 4, 4, 4, 0] := by
  decide

/-! ### The ADDRESS arm and the universe commands -/

/-- V-A1, V-A3, V-A7, V-A8. -/
theorem test_address_applied :
    (let s := after .dgAddress (lockedTo (holding at21 addrZ (addressBytes [] [] 0x85 0x7F 0x01)) addrX)
     s.ret = 0x6000 ∧ s.ua = 0x25 ∧ s.lockValid = false ∧ s.activeSlots = 512 ∧ s.seq = 0x00) ∧
    (let s := after .dgAddress (lockedTo (holding at21 addrZ (addressBytes [] [] 0x83 0x8C 0x90)) addrX)
     s.ua = 0xC3 ∧ s.lockValid = true ∧ s.lockAddr = addrX) ∧
    (let s := after .dgAddress (holding at21 addrZ
      (addressBytes [] [0x4C, 0x6F, 0x6E, 0x67, 0x20, 0x6F, 0x6E, 0x65] 0x7F 0x7F 0x00))
     s.longName = pad 64 [0x4C, 0x6F, 0x6E, 0x67, 0x20, 0x6F, 0x6E, 0x65]) ∧
    (let s := after .dgAddress (holding at21 addrZ (addressBytes [0x53, 0x74, 0x61, 0x67, 0x65, 0x20, 0x4C] [] 0x85 0x7F 0x00))
     s.shortName = pad 18 [0x53, 0x74, 0x61, 0x67, 0x65, 0x20, 0x4C] ∧ s.ua = 0x25) := by decide

/-- V-A2 (106 bytes), V-A5 (apply bits clear), V-A6 (a first name byte 00). -/
theorem test_address_not_applied :
    (let s := lockedTo (holding at21 addrZ ((addressBytes [] [] 0x85 0x7F 0x01).take 106)) addrX
     after .dgAddress s = s.showing 0x0000) ∧
    (let s := holding at21 addrZ (addressBytes [] [] 0x05 0x03 0x00); after .dgAddress s = s.showing 0x6000) ∧
    (let s := holding { at21 with shortName := pad 18 [0x4F, 0x6C, 0x64] } addrZ
       (addressBytes [0x00, 0x4E, 0x65, 0x77] [] 0x7F 0x7F 0x00)
     after .dgAddress s = s.showing 0x6000) := by decide

/-- V-C1 to V-C8, both columns. -/
theorem test_configuration_bytes :
    [0x7F, 0x85, 0x05, 0xFF, 0x80, 0xF5, 0x00, 0x7E].map (fun c => (after (.setUniverseAddress c) at21).ua) =
      [0x21, 0x25, 0x21, 0x2F, 0x20, 0x25, 0x21, 0x21] ∧
    [0x7F, 0x85, 0x05, 0xFF, 0x80, 0xF5, 0x00, 0x7E].map (fun c => (after (.setSubnetAddress c) at21).ua) =
      [0x21, 0x51, 0x21, 0xF1, 0x01, 0x51, 0x21, 0x21] := by decide

/-- V-C9 to V-C13. -/
theorem test_set_universe :
    (after (.setUniverse 7) at21).ua = 0x27 ∧ (after (.setUniverse 0x15) at21).ua = 0x25 ∧
    (after (.setUniverse 0x7F) at21).ua = 0x2F ∧ (after (.setSubnetUniverse 3 10) at21).ua = 0x3A ∧
    (after (.setSubnetUniverse 0xFF 0xFF) at21).ua = 0xFF := by decide

/-- V-C14 and V-C15, and GET_SUBNET of R87. -/
theorem test_get_universe :
    (after .getUniverse { at21 with ua := 0x3A }).ret = 0x000A ∧
    (after .getSubnetUniverse { at21 with ua := 0x3A }).ret = 0x003A ∧ subnetReply 0x003A = 0x3 := by decide

/-! ### The encodes -/

/-- V-E1: the 24 bytes, the wrap of the counter, the destination. -/
theorem test_enc_data :
    let s := after (.encData 0x0A0000FF) { withSlots 6 [0x11, 0x22, 0x33, 0x44, 0x55, 0x66] with seq := 0xFF, ua := 0x12 }
    s.datagram = hdr ++ [0x00, 0x50, 0x00, 0x0E, 0xFF, 0x00, 0x12, 0x00, 0x00, 0x06, 0x11, 0x22, 0x33, 0x44, 0x55, 0x66] ∧
    s.rawLen = 24 ∧ s.seq = 0x00 ∧ s.txDest = some 0x0A0000FF := by decide

/-- V-E3: an odd count goes out as it is. -/
theorem test_enc_data_odd :
    let s := after (.encData addrX) { withSlots 1 [0x80] with seq := 0x09 }
    s.datagram = hdr ++ [0x00, 0x50, 0x00, 0x0E, 0x09, 0x00, 0x00, 0x00, 0x00, 0x01, 0x80] ∧ s.seq = 0x0A := by
  decide

/-- The parameters of program P3. -/
def p3 : State :=
  { State.reset with
    ua := 0x3A
    shortName := pad 18 [0x4C, 0x58, 0x44, 0x4D, 0x58]
    longName := pad 64 [0x4C, 0x58, 0x55, 0x53, 0x41, 0x52, 0x54, 0x44, 0x4D, 0x58, 0x20, 0x6E, 0x6F, 0x64, 0x65]
    par := { Params.fresh with
      nodeReport := pad 64 [0x23, 0x30, 0x30, 0x30, 0x31, 0x20, 0x5B, 0x30, 0x30, 0x30, 0x30, 0x5D, 0x20, 0x4F, 0x4B] } }

/-- V-R1: all 239 bytes of program P3, from its table. -/
theorem test_enc_poll_reply :
    let s := after (.encPollReply addrY) p3
    s.txDest = some 0x0A000002 ∧ s.rawLen = 239 ∧
    s.datagram =
      pad 44 (pad 26 (hdr ++ [0x00, 0x21, 0xC0, 0xA8, 0x01, 0x32, 0x19, 0x36, 0x00, 0x01, 0x00, 0x03]) ++
        [0x4C, 0x58, 0x44, 0x4D, 0x58]) ++
      pad 64 [0x4C, 0x58, 0x55, 0x53, 0x41, 0x52, 0x54, 0x44, 0x4D, 0x58, 0x20, 0x6E, 0x6F, 0x64, 0x65] ++
      pad 82 [0x23, 0x30, 0x30, 0x30, 0x31, 0x20, 0x5B, 0x30, 0x30, 0x30, 0x30, 0x5D, 0x20, 0x4F, 0x4B] ++
      pad 49 [0x0A] := by decide

/-- V-R2: locked, with a broadcast address. -/
theorem test_enc_poll_reply_broadcast :
    let s := after (.encPollReply addrY) { lockedTo p3 addrX with bcastValid := true, bcastAddr := 0xC0A801FF }
    s.txDest = some 0xC0A801FF ∧ s.raw.read 182 = 0x08 ∧ s.raw.read 190 = 0x0A := by decide

/-! ### The slot buffer -/

/-- V-S1 to V-S5. -/
theorem test_set_num_slots :
    (after (.setNumSlots 0) (withSlots 512 [])).activeSlots = 512 ∧
    (after (.setNumSlots 513) (withSlots 100 [])).activeSlots = 100 ∧
    (after (.setNumSlots 512) (withSlots 100 [])).activeSlots = 512 ∧
    (after (.setNumSlots 1) (withSlots 512 [])).activeSlots = 1 ∧
    (after (.setNumSlots 65535) (withSlots 7 [])).activeSlots = 7 := by decide

/-- V-S6. -/
theorem test_get_num_slots : (after .getNumSlots State.reset).ret = 0x0200 := by decide

/-- V-S8, V-S9, V-S12. -/
theorem test_set_slot :
    (after (.setSlot 512 0x7B) State.reset).slots = [(512, 0x7B)] ∧ (after (.setSlot 0 0x99) State.reset).slots = [] ∧
    (after (.setSlot 513 0x99) State.reset).slots = [] ∧ (after (.setSlot 400 0x44) (withSlots 2 [])).slots = [(400, 0x44)] := by
  decide

/-- V-S10, V-S11, and R193's example. -/
theorem test_get_slot :
    (after (.getSlot 3) (withSlots 2 [0, 0, 0x33])).ret = 0x0033 ∧
    (after (.getSlot 0) (withSlots 2 [0, 0, 0x33])).ret = 0x0000 ∧
    (after (.getSlot 513) { State.reset with slots := [(512, 0x7B)] }).ret = 0x0000 ∧
    (after (.getSlot 512) { State.reset with slots := [(512, 0x7B)] }).ret = 0x007B := by decide

/-- R194's example, after program P1. -/
theorem test_read_slots :
    (after .readSlots (withSlots 6 [1, 2, 3, 4, 5, 6])).slotsOut = some (pad 512 [1, 2, 3, 4, 5, 6]) := by decide

/-- V-S14. -/
theorem test_reserved : after .reservedF at21 = at21.showing 0x0000 := by decide

/-! ### Witnesses: for each statement with hypotheses, states and operands that meet them together, at the boundaries of each
clause -/

/-- Every instruction answers, so a hypothesis `exec i s = .next t` is met by `t = after i s`. -/
theorem exec_after (i : Instr) (s : State) : exec i s = .next (after i s) := by
  have h : ∃ t, exec i s = .next t := by
    cases i
    case decode =>
      obtain ⟨_, h⟩ | ⟨op, _, h⟩ := execDecode_cases s
      · exact ⟨_, h⟩
      · show ∃ t, execDecode s = .next t
        rw [h]
        cases datagramOfOpcode op
        case data => exact ⟨_, execDgData_eq s⟩
        case address => exact ⟨_, execDgAddress_eq s⟩
        all_goals exact ⟨_, rfl⟩
    case dgData => exact ⟨_, execDgData_eq s⟩
    case dgAddress => exact ⟨_, execDgAddress_eq s⟩
    case setNumSlots n =>
      show ∃ t, execSetNumSlots n s = .next t
      unfold execSetNumSlots
      split <;> exact ⟨_, rfl⟩
    all_goals exact ⟨_, rfl⟩
  obtain ⟨t, h⟩ := h
  simp only [after, h]

/-- The same of a step. -/
theorem step_afterStep (s : State) : step s = .next (afterStep s) := by
  have h : ∃ t, step s = .next t := by
    obtain ⟨_, h⟩ | ⟨_, _, _, _, h⟩ | ⟨_, _, _, h⟩ := step_cases s
    · exact ⟨_, h⟩
    · exact ⟨_, h⟩
    · exact ⟨_, h.trans (exec_after _ _)⟩
  obtain ⟨t, h⟩ := h
  simp only [afterStep, h]

/-- The fresh engine with these requests waiting. -/
def waiting (port : List Request) : State := { State.reset with port := port }

/-- V-D1's state: unlocked, a datagram that will be applied. -/
def sD1 : State := freshHolding addrX d1

/-- The holder sends V-D1's datagram again. -/
def sHolder : State := lockedTo sD1 addrX

/-- V-M3's situation: another sender than the holder. -/
def sForeign : State := lockedTo sD1 addrY

/-- The cancel-merge datagram `ac` of program P1, from Z, while X holds the lock. -/
def sCancel : State := lockedTo (freshHolding addrZ (addressBytes [] [] 0x7F 0x7F 0x01)) addrX

/-- V-A8's situation. -/
def sRename : State := holding at21 addrZ (addressBytes [0x53, 0x74, 0x61, 0x67, 0x65, 0x20, 0x4C] [0x4C] 0x85 0x8C 0x00)

/-- 18 bytes, wire length 2, no payload: V-D7. -/
def sEmpty : State := freshHolding addrX (dataBytes 0x00 0x02 [])

/-- A DATA datagram of all 512 slots, 530 bytes: V-L7's length. -/
def sFull : State := freshHolding addrX (dataBytes 0x02 0x00 (List.replicate 512 0xFA))

theorem wf_reset : State.reset.Wf := wf_of_fresh rfl (by decide)

theorem wf_at21 : at21.Wf := wf_of_fresh rfl (by decide)

theorem wf_sD1 : sD1.Wf := wf_of_fresh rfl (by decide)

theorem wf_sHolder : sHolder.Wf := wf_of_fresh rfl (by decide)

theorem wf_sCancel : sCancel.Wf := wf_of_fresh rfl (by decide)

theorem wf_sRename : sRename.Wf := wf_of_fresh rfl (by decide)

theorem wf_freshHolding (src : Addr) {bytes : List Byte} (h : bytes.length ≤ 530) : (freshHolding src bytes).Wf :=
  wf_of_fresh rfl ⟨Memory.canonical_nil, List.forall_mem_nil _, Memory.canonical_writeBytes Memory.canonical_nil,
    Memory.within_writeBytes (List.forall_mem_nil _) (Nat.le_refl 0) (by omega), wf_reset.activePos, wf_reset.activeMax, h,
    wf_reset.shortLength, wf_reset.longLength, wf_reset.noBcast⟩

theorem wf_sFull : sFull.Wf := wf_freshHolding _ (by decide)

theorem witness_StepServesOwnerRequests :
    (waiting [.command (bareCommand 0xB)]).port = .command (bareCommand 0xB) :: [] ∧
    (waiting [.reset 1 none]).port = .reset 1 none :: [] ∧ State.reset.port = [] := ⟨rfl, rfl, rfl⟩

theorem witness_DecodeUndoesEncode : (Instr.dgOther 0x9700).wellFormed = true ∧ (Instr.setSlot 513 0).wellFormed = true := by
  decide

/-- Two transactions of one code (operands it does not use differ), and two datagrams of one kind. -/
theorem witness_NoTwoOpcodesShareAnInstruction :
    decodeCommand ⟨0xB, 1, 2, 3, []⟩ = decodeCommand ⟨0xB, 4, 5, 6, []⟩ ∧
    decodeDatagram Params.fresh (hdr ++ [0x00, 0x20]) = .ok .poll ∧
    decodeDatagram Params.fresh (hdr ++ [0x00, 0x20, 0x00]) = .ok .poll := by decide

theorem witness_ResetRestoresEveryElement :
    (waiting [.reset 1 (some 2)]).port = .reset 1 (some 2) :: [] ∧ (waiting [.reset 1 none]).port = .reset 1 none :: [] :=
  ⟨rfl, rfl⟩

theorem witness_ResetMeetsInvariant :
    Params.fresh.Valid ∧ { Params.fresh with rawCap := 1500, slotsInit := 1, seqInit := 0xFF }.Valid := by decide

theorem witness_StepKeepsInvariant :
    (waiting [.command (bareCommand 0xB)]).Wf ∧
    step (waiting [.command (bareCommand 0xB)]) = .next (afterStep (waiting [.command (bareCommand 0xB)])) ∧
    (waiting [.reset 1 (some 2)]).Wf ∧ step (waiting [.reset 1 (some 2)]) = .next (afterStep (waiting [.reset 1 (some 2)])) :=
  ⟨wf_of_fresh rfl (by decide), step_afterStep _, wf_of_fresh rfl (by decide), step_afterStep _⟩

theorem witness_EveryInstructionCompletes : State.reset.Wf ∧ sRename.Wf := ⟨wf_reset, wf_sRename⟩

/-- GET_UNIVERSE meets the condition of every clause. -/
theorem witness_FrameOfEveryInstruction :
    exec .getUniverse at21 = .next (after .getUniverse at21) ∧ Instr.getUniverse ≠ .decode ∧ Instr.getUniverse ≠ .dgData ∧
    Instr.getUniverse ≠ .dgAddress ∧ (∀ idx v, Instr.getUniverse ≠ .setSlot idx v) ∧ (∀ n, Instr.getUniverse ≠ .setNumSlots n) ∧
    (∀ u, Instr.getUniverse ≠ .setUniverse u) ∧ (∀ sub u, Instr.getUniverse ≠ .setSubnetUniverse sub u) ∧
    (∀ c, Instr.getUniverse ≠ .setUniverseAddress c) ∧ (∀ c, Instr.getUniverse ≠ .setSubnetAddress c) ∧
    (∀ dest, Instr.getUniverse ≠ .encData dest) ∧ (∀ src, Instr.getUniverse ≠ .encPollReply src) ∧
    (∀ src bytes, Instr.getUniverse ≠ .rxload src bytes) := by
  refine ⟨exec_after _ _, ?_⟩
  simp

/-- Each element does change somewhere, by the owner and by the network. -/
theorem witness_OwnerAndNetworkReach :
    State.reset.Wf ∧ sD1.Wf ∧ sRename.Wf ∧ sCancel.Wf ∧
    (after (.setSlot 1 7) State.reset).slots ≠ State.reset.slots ∧ (after .decode sD1).slots ≠ sD1.slots ∧
    (after (.setNumSlots 1) State.reset).activeSlots ≠ State.reset.activeSlots ∧
    (after .dgData sD1).activeSlots ≠ sD1.activeSlots ∧
    (after (.setUniverse 7) at21).ua ≠ at21.ua ∧ (after .decode sRename).ua ≠ sRename.ua ∧
    ((after .decode sD1).lockValid, (after .decode sD1).lockAddr) ≠ (sD1.lockValid, sD1.lockAddr) ∧
    ((after .decode sCancel).lockValid, (after .decode sCancel).lockAddr) ≠ (sCancel.lockValid, sCancel.lockAddr) ∧
    ((after .decode sRename).shortName, (after .decode sRename).longName) ≠ (sRename.shortName, sRename.longName) ∧
    (after (.encData 0) State.reset).seq ≠ State.reset.seq :=
  ⟨wf_reset, wf_sD1, wf_sRename, wf_sCancel, by decide⟩

theorem witness_RepeatingAnyOtherCommandChangesNothing :
    sD1.Wf ∧ (∀ dest, Instr.decode ≠ .encData dest) ∧ exec .decode sD1 = .next (after .decode sD1) :=
  ⟨wf_sD1, by simp, exec_after _ _⟩

theorem witness_RxloadStoresTheDatagram :
    sD1.Wf ∧ (after (.rxload addrY [1, 2]) sD1).rawLen ≤ 2 ∧ (after (.rxload addrY []) sD1).rawLen ≤ 0 :=
  ⟨wf_sD1, by decide⟩

/-- 9 bytes; 10 bytes with a wrong last magic byte; 22 bytes with a wrong first one. -/
theorem witness_DecodeRejectsForeignBytes :
    (freshHolding addrX (d1.take 9)).rawLen < 10 ∧
    (let s := freshHolding addrX ((hdr.set 7 0x01) ++ [0x00, 0x50])
     10 ≤ s.rawLen ∧ ∃ k, k < 8 ∧ s.raw.read k ≠ s.par.magic.getD k 0) ∧
    (let s := freshHolding addrX (d1.set 0 0x61)
     10 ≤ s.rawLen ∧ ∃ k, k < 8 ∧ s.raw.read k ≠ s.par.magic.getD k 0) := by
  refine ⟨by decide, ⟨by decide, 7, by decide⟩, ⟨by decide, 0, by decide⟩⟩

/-- A bare header of every kind, from 10 bytes on. -/
theorem witness_DecodeTakesTheArmOfTheOpcode :
    (freshHolding addrX (hdr ++ [0x00, 0x20])).Holds 0x2000 ∧ (freshHolding addrX (hdr ++ [0x00, 0x21])).Holds 0x2100 ∧
    sD1.Holds 0x5000 ∧ sCancel.Holds 0x6000 ∧ (freshHolding addrX (hdr ++ [0x50, 0x00])).Holds 0x0050 := by decide

theorem witness_PollReplyAndOtherArmsOnlyAnswer :
    (freshHolding addrX (hdr ++ [0x00, 0x20])).Holds 0x2000 ∧ (freshHolding addrX (hdr ++ [0x00, 0x21])).Holds 0x2100 ∧
    ((0x0000 : Half) ≠ 0x2000 ∧ (0x0000 : Half) ≠ 0x2100 ∧ (0x0000 : Half) ≠ 0x5000 ∧ (0x0000 : Half) ≠ 0x6000 ∧
      (freshHolding addrX (hdr ++ [0x00, 0x00])).Holds 0x0000) := by decide

/-- DATA of exactly 18 bytes and of 17, ADDRESS of exactly 107 bytes and of 106. -/
theorem witness_DecodeReturnCodes :
    exec .decode sEmpty = .next (after .decode sEmpty) ∧ (sEmpty.Holds 0x5000 ∧ sEmpty.rawLen = 18) ∧
    (freshHolding addrX (d1.take 17)).Holds 0x5000 ∧ (sCancel.Holds 0x6000 ∧ sCancel.rawLen = sCancel.par.addrMinLen) ∧
    (freshHolding addrX ((addressBytes [] [] 0 0 1).take 106)).Holds 0x6000 :=
  ⟨exec_after _ _, by decide⟩

/-- 10 and 17 bytes; 18 bytes with no payload; wire length 1 (V-L2) and a single payload byte (V-L14). -/
theorem witness_ShortOrEmptyDataIsNotApplied :
    (let s := freshHolding addrX (d1.take 10); s.rawLen < 18 ∧ s.Holds 0x5000) ∧
    (let s := freshHolding addrX (d1.take 17); s.rawLen < 18 ∧ s.Holds 0x5000) ∧
    (18 ≤ sEmpty.rawLen ∧ sEmpty.payloadCount = 0 ∧ sEmpty.Holds 0x5000) ∧
    (let s := freshHolding addrX (dataBytes 0x00 0x01 [0x01]); 18 ≤ s.rawLen ∧ s.payloadCount = 0 ∧ s.Holds 0x5000) ∧
    (let s := freshHolding addrX (dataBytes 0x00 0x02 [0x01]); 18 ≤ s.rawLen ∧ s.payloadCount = 0 ∧ s.Holds 0x5000) := by
  decide

theorem witness_WrongUniverseIsDiscarded :
    let s := holding at21 addrX d1
    18 ≤ s.rawLen ∧ s.raw.read 14 ≠ s.ua ∧ s.Holds 0x5000 := by decide

theorem witness_LockedOutDataIsDiscarded :
    18 ≤ sForeign.rawLen ∧ sForeign.lockValid = true ∧ sForeign.rxSrc ≠ sForeign.lockAddr ∧ sForeign.Holds 0x5000 := by
  decide

/-- Unlocked, from the holder, and with a full payload of 512 slots. -/
theorem witness_AcceptedDataIsCopiedAndLocks :
    (sD1.Wf ∧ sD1.ReachesArbiter ∧ ¬sD1.LockedAgainst ∧ sD1.Holds 0x5000) ∧
    (sHolder.Wf ∧ sHolder.ReachesArbiter ∧ ¬sHolder.LockedAgainst) ∧
    (sFull.Wf ∧ sFull.ReachesArbiter ∧ ¬sFull.LockedAgainst ∧ sFull.payloadCount = 512) :=
  ⟨⟨wf_sD1, by decide⟩, ⟨wf_sHolder, by decide⟩, ⟨wf_sFull, by decide⟩⟩

theorem witness_SlotsBeyondTheCountStayStale :
    exec .dgData sD1 = .next (after .dgData sD1) ∧ (after .dgData sD1).activeSlots.toNat < 5 :=
  ⟨exec_after _ _, by decide⟩

theorem witness_EffectiveLengthIsTheGreatestEvenFit :
    4 = effectiveLength 5 23 ∧ 4 % 2 = 0 ∧ 4 ≤ 512 ∧ 4 ≤ 5 ∧ 4 ≤ 23 - 18 := by decide

/-- Each row of the table, DATA that does not reach the lock test, a POLL, and another command. -/
theorem witness_ArbiterFollowsItsTable :
    (sD1.Wf ∧ sD1.ReachesArbiter ∧ sD1.lockValid = false) ∧
    (sHolder.Wf ∧ sHolder.ReachesArbiter ∧ sHolder.lockValid = true ∧ sHolder.lockAddr = sHolder.rxSrc) ∧
    (sForeign.ReachesArbiter ∧ sForeign.lockValid = true ∧ sForeign.lockAddr ≠ sForeign.rxSrc) ∧
    (18 ≤ sEmpty.rawLen ∧ ¬sEmpty.ReachesArbiter) ∧ sCancel.HoldsCancel ∧
    (waiting [.reset 1 none]).port = .reset 1 none :: [] ∧
    (let s := lockedTo (freshHolding addrX (hdr ++ [0x00, 0x20])) addrY
     exec .decode s = .next (after .decode s) ∧ ¬s.Holds 0x5000 ∧ ¬s.HoldsCancel) ∧
    exec (.encData 0) sHolder = .next (after (.encData 0) sHolder) :=
  ⟨⟨wf_sD1, by decide⟩, ⟨wf_sHolder, by decide⟩, by decide, by decide, by decide, rfl,
    ⟨exec_after _ _, by decide⟩, exec_after _ _⟩

/-- A release by reset and one by cancel merge, a taking, and a lock that is kept. -/
theorem witness_LockMovesOnlyByItsInputs :
    (∀ s : State, step s = .next (afterStep s)) ∧
    (let s := { sHolder with port := [.reset 1 none] }; s.lockValid = true ∧ (afterStep s).lockValid = false) ∧
    (let s := { sCancel with port := issue Params.fresh .decode }; s.lockValid = true ∧ (afterStep s).lockValid = false) ∧
    (let s := { sD1 with port := issue Params.fresh .decode }; s.lockValid = false ∧ (afterStep s).lockValid = true) ∧
    (let s := { sForeign with port := issue Params.fresh .decode }; s.lockValid = true ∧ (afterStep s).lockValid = true) :=
  ⟨step_afterStep, by decide⟩

theorem witness_ForeignSenderCannotChangeSlots :
    let s := { sHolder with port := recv Params.fresh addrY d1 }
    s.Wf ∧ s.lockValid = true ∧ addrY ≠ s.lockAddr ∧ s.port = recv s.par addrY d1 ++ [] :=
  ⟨wf_of_fresh rfl (by decide), by decide⟩

/-- Program P1 from step 6 on. -/
theorem witness_CancelMergeLetsTheNextSenderIn :
    let t := after .decode sCancel
    let u := after (.rxload addrY d1) t
    sCancel.Wf ∧ sCancel.HoldsCancel ∧ exec .decode sCancel = .next t ∧ exec (.rxload addrY d1) t = .next u ∧
    u.Holds 0x5000 ∧ u.ReachesArbiter :=
  ⟨wf_sCancel, by decide, exec_after _ _, exec_after _ _, by decide⟩

theorem witness_AddressConfiguresTheNode :
    sCancel.rawLen = 107 ∧ sCancel.par.addrMinLen ≤ sCancel.rawLen ∧ sCancel.Holds 0x6000 ∧
    sRename.par.addrMinLen ≤ sRename.rawLen ∧ sRename.Holds 0x6000 := by decide

theorem witness_ShortAddressIsNotApplied :
    let s := freshHolding addrZ ((addressBytes [] [] 0x85 0x7F 0x01).take 106)
    s.rawLen < s.par.addrMinLen ∧ s.Holds 0x6000 := by decide

theorem witness_CancelMergeClearsTheLock :
    sCancel.HoldsCancel ∧ sCancel.lockValid = true ∧ { sCancel with lockValid := false }.HoldsCancel := by decide

theorem witness_WireConfigurationMatchesOwnerCommands :
    let u := after (.setUniverseAddress (sRename.raw.read sRename.par.adUniverse)) sRename
    let w := after (.setSubnetAddress (sRename.raw.read sRename.par.adSubnet)) sRename
    sRename.par.addrMinLen ≤ sRename.rawLen ∧ exec .dgAddress sRename = .next (after .dgAddress sRename) ∧
    exec (.setUniverseAddress (sRename.raw.read sRename.par.adUniverse)) sRename = .next u ∧
    exec (.setSubnetAddress (sRename.raw.read sRename.par.adSubnet)) u =
      .next (after (.setSubnetAddress (sRename.raw.read sRename.par.adSubnet)) u) ∧
    exec (.setSubnetAddress (sRename.raw.read sRename.par.adSubnet)) sRename = .next w ∧
    exec (.setUniverseAddress (sRename.raw.read sRename.par.adUniverse)) w =
      .next (after (.setUniverseAddress (sRename.raw.read sRename.par.adUniverse)) w) :=
  ⟨by decide, exec_after _ _, exec_after _ _, exec_after _ _, exec_after _ _, exec_after _ _⟩

/-- 1 and 512 are taken, 0 and 513 are not. -/
theorem witness_SetNumSlotsTakesOneTo512 :
    (1 ≤ (1 : Half).toNat ∧ (1 : Half).toNat ≤ 512) ∧ (1 ≤ (512 : Half).toNat ∧ (512 : Half).toNat ≤ 512) ∧
    ((0 : Half).toNat = 0 ∨ 512 < (0 : Half).toNat) ∧ ((513 : Half).toNat = 0 ∨ 512 < (513 : Half).toNat) := by decide

theorem witness_GetNumSlotsReturnsTheCount :
    State.reset.Wf ∧ sD1.Wf ∧ exec .dgData sD1 = .next (after .dgData sD1) ∧ sD1.ReachesArbiter ∧ ¬sD1.LockedAgainst :=
  ⟨wf_reset, wf_sD1, exec_after _ _, by decide⟩

/-- Slots 1 and 512 exist, 0 and 513 do not. -/
theorem witness_SetSlotWritesOneSlot :
    State.reset.Wf ∧ (1 ≤ (1 : Half).toNat ∧ (1 : Half).toNat ≤ 512) ∧ (1 ≤ (512 : Half).toNat ∧ (512 : Half).toNat ≤ 512) ∧
    ((0 : Half).toNat = 0 ∨ 512 < (0 : Half).toNat) ∧ ((513 : Half).toNat = 0 ∨ 512 < (513 : Half).toNat) :=
  ⟨wf_reset, by decide⟩

/-- Slots 1 and 512 of the 512 bytes. -/
theorem witness_ReadSlotsReturnsAllSlots : (1 ≤ 1 ∧ 1 ≤ 512) ∧ (1 ≤ 512 ∧ 512 ≤ 512) := by decide

theorem witness_ReservedCodeDoesNothing :
    (waiting [.command (bareCommand 0xF)]).port = .command (bareCommand 0xF) :: [] ∧ (bareCommand 0xF).cmd = 0xF :=
  ⟨rfl, rfl⟩

/-- One slot in use and all 512: the first and last payload byte, and the first byte beyond. -/
theorem witness_EncDataBuildsTheDatagram :
    (withSlots 1 [0x80]).Wf ∧ (1 ≤ (withSlots 1 [0x80]).activeSlots.toNat ∧ 18 + (withSlots 1 [0x80]).activeSlots.toNat ≤ 19) ∧
    State.reset.Wf ∧ (512 ≤ State.reset.activeSlots.toNat ∧ 18 + State.reset.activeSlots.toNat ≤ 530) :=
  ⟨wf_of_fresh rfl (by decide), by decide, wf_reset, by decide⟩

theorem witness_SequenceCountsEncodedDatagrams :
    exec (.encData 0) sD1 = .next (after (.encData 0) sD1) ∧ sD1.Wf ∧ exec .decode sD1 = .next (after .decode sD1) ∧
    (∀ dest, Instr.decode ≠ .encData dest) ∧
    (let s := waiting (.reset 1 none :: (List.replicate 2 (sendData Params.fresh 0)).flatten)
     s.par.Valid ∧ 1 ≤ 2 ∧ s.port = .reset 1 none :: (List.replicate 2 (sendData s.par 0)).flatten ++ []) :=
  ⟨exec_after _ _, wf_sD1, exec_after _ _, by simp, by decide⟩

/-- Padding at offsets 18 and 238 (R176), the first byte beyond the reply, and both lock states. -/
theorem witness_EncPollReplyBuildsTheReply :
    sD1.Wf ∧ (18 < 239 ∧ ∀ f ∈ sD1.par.replyFields, 18 < f.1 ∨ f.1 + f.2 ≤ 18) ∧
    (238 < 239 ∧ ∀ f ∈ sD1.par.replyFields, 238 < f.1 ∨ f.1 + f.2 ≤ 238) ∧ sHolder.Wf ∧ sHolder.lockValid = true ∧
    sD1.lockValid = false :=
  ⟨wf_sD1, by decide, by decide, wf_sHolder, by decide⟩

theorem witness_ReplyGoesToBroadcastOrSender :
    let s := { State.reset with bcastValid := true, bcastAddr := 0xC0A801FF }
    exec (.encPollReply addrY) s = .next (after (.encPollReply addrY) s) ∧ s.bcastValid = true ∧
    exec (.encPollReply addrY) State.reset = .next (after (.encPollReply addrY) State.reset) ∧
    State.reset.bcastValid = false := ⟨exec_after _ _, rfl, exec_after _ _, rfl⟩

/-- V-E4 with one slot, with two, and with five. -/
theorem witness_EncodedDataRoundTrips :
    ∀ e ∈ [withSlots 1 [0x80], withSlots 2 [1, 2], withSlots 5 [1, 2, 3, 4, 5]],
      let sent := after (.encData addrX) e
      let f := waiting (recv Params.fresh addrX sent.datagram)
      e.Wf ∧ f.Wf ∧ e.par.magicHead = f.par.magicHead ∧ e.ua = f.ua ∧ f.lockValid = false ∧
      exec (.encData addrX) e = .next sent ∧ f.port = recv f.par addrX sent.datagram ++ [] := by
  intro e he
  simp only [List.mem_cons, List.not_mem_nil, or_false] at he
  obtain rfl | rfl | rfl := he <;>
    exact ⟨wf_of_fresh rfl (by decide), wf_of_fresh rfl (by decide), rfl, rfl, rfl, exec_after _ _,
      (List.append_nil _).symm⟩

theorem witness_DecodeReadsTheBlocksOwnOutput :
    State.reset.Wf ∧ exec (.encPollReply addrY) State.reset = .next (after (.encPollReply addrY) State.reset) ∧
    (withSlots 2 [9, 8]).Wf ∧ exec (.encData 1) (withSlots 2 [9, 8]) = .next (after (.encData 1) (withSlots 2 [9, 8])) ∧
    (withSlots 2 [9, 8]).lockValid = false ∧ 2 ≤ (withSlots 2 [9, 8]).activeSlots.toNat :=
  ⟨wf_reset, exec_after _ _, wf_of_fresh rfl (by decide), exec_after _ _, rfl, by decide⟩

/-- Two states that differ in a stale byte of `raw` and in a free lock's address. -/
theorem witness_HiddenStateIsUnobservable :
    let s := { freshHolding addrX [1, 2] with port := [.command (bareCommand 0x1)] }
    let t := { s with raw := Memory.writeBytes [] 0 [1, 2, 3], lockAddr := addrZ }
    s.Wf ∧ t.Wf ∧ s ≠ t ∧ s.Alike t ∧ s.port ≠ [] ∧ s.observe = t.observe ∧ step s = .next (afterStep s) ∧
    step t = .next (afterStep t) ∧
    Host.Core.run Sys2Proof.core 1 s = .next (afterStep s) ∧ Host.Core.run Sys2Proof.core 1 t = .next (afterStep t) :=
  ⟨wf_of_fresh rfl (by decide), wf_of_fresh rfl (by decide), by decide,
    { slots := rfl, activeSlots := rfl, ua := rfl, seq := rfl, lockValid := rfl, lockAddr := by decide, rxSrc := rfl,
      rawLen := rfl, raw := by decide, shortName := rfl, longName := rfl, nodeAddr := rfl, bcastValid := rfl,
      bcastAddr := rfl, par := rfl, port := rfl },
    by decide, by decide, step_afterStep _, step_afterStep _,
    (run_succ (step_afterStep _)).trans (run_zero _), (run_succ (step_afterStep _)).trans (run_zero _)⟩

end Sys2Proof.Tests
end

/-! # What every step keeps (`10_state.md` rule R33)

One relation, `State.Keeps`, says what no command disturbs: the invariant, the parameters, the node identity and the requests still
waiting. Every shared operation of `Machine/Ops.lean` keeps it and it composes, so each instruction keeps it. -/

namespace Sys2Proof.Machine

/-- What a command keeps on the way from `s` to `t`: R33's invariant, and the fields that no command writes. -/
structure State.Keeps (s t : State) : Prop where
  wf         : s.Wf → t.Wf
  par        : t.par = s.par
  nodeAddr   : t.nodeAddr = s.nodeAddr
  bcastValid : t.bcastValid = s.bcastValid
  bcastAddr  : t.bcastAddr = s.bcastAddr
  port       : t.port = s.port

theorem State.Keeps.refl (s : State) : s.Keeps s := ⟨id, rfl, rfl, rfl, rfl, rfl⟩

theorem State.Keeps.trans {s t u : State} (h : s.Keeps t) (k : t.Keeps u) : s.Keeps u where
  wf         := k.wf ∘ h.wf
  par        := k.par.trans h.par
  nodeAddr   := k.nodeAddr.trans h.nodeAddr
  bcastValid := k.bcastValid.trans h.bcastValid
  bcastAddr  := k.bcastAddr.trans h.bcastAddr
  port       := k.port.trans h.port

/-! ## The bounds of what commands store -/

/-- A DATA datagram fits: `RAW_CAP` is at least 18 + 512 (`00_scope.md` rule R8). -/
theorem State.Wf.length_dataDatagram_le {s : State} (h : s.Wf) : s.dataDatagram.length ≤ s.par.rawCap := by
  have hcap : 530 ≤ s.par.rawCap := h.params.1
  have hmax := h.activeMax
  rw [State.length_dataDatagram]
  omega

/-- A discovery reply fits. -/
theorem State.Wf.pollReplyLen_le {s : State} (h : s.Wf) : pollReplyLen ≤ s.par.rawCap := by
  have hcap : 530 ≤ s.par.rawCap := h.params.1
  have hlen : pollReplyLen = 239 := rfl
  omega

/-- Every store of a reply lies inside its 239 bytes: the parameters' layout check, with the names and the report at their
declared lengths. -/
theorem State.Wf.replyParts_le {s : State} (h : s.Wf) : ∀ q ∈ s.replyParts, q.1 + q.2.length ≤ pollReplyLen := by
  obtain ⟨-, -, -, -, -, -, hreport, -, hinside, -⟩ := h.params
  simp only [Params.replyFields, List.forall_mem_cons, List.not_mem_nil, IsEmpty.forall_iff, implies_true] at hinside
  simp only [State.replyParts, List.forall_mem_cons, List.length_replicate, length_headerBytes, h.shortLength, h.longLength,
    hreport, addrBytes, bigEndian, List.length_cons, List.length_nil,
    Nat.reduceAdd, List.not_mem_nil, IsEmpty.forall_iff, implies_true]
  obtain ⟨-, hopcode, hfields⟩ := hinside
  exact ⟨by omega, by omega, hfields⟩

/-! ## One lemma per shared operation -/

theorem State.keeps_respond (s : State) (r : Half) (d : Option Addr) (o : Option (List Byte)) : s.Keeps (s.respond r d o) :=
  ⟨fun h => { h with }, rfl, rfl, rfl, rfl, rfl⟩

theorem State.keeps_showing (s : State) (r : Half) : s.Keeps (s.showing r) := s.keeps_respond r none none

theorem State.keeps_setAddress (s : State) (u : Byte) : s.Keeps (s.setAddress u) :=
  ⟨fun h => { h with }, rfl, rfl, rfl, rfl, rfl⟩

theorem State.keeps_releaseLock (s : State) : s.Keeps s.releaseLock := ⟨fun h => { h with }, rfl, rfl, rfl, rfl, rfl⟩

theorem State.keeps_takeLock (s : State) : s.Keeps s.takeLock := ⟨fun h => { h with }, rfl, rfl, rfl, rfl, rfl⟩

theorem State.keeps_advanceSeq (s : State) : s.Keeps s.advanceSeq := ⟨fun h => { h with }, rfl, rfl, rfl, rfl, rfl⟩

theorem State.keeps_latchSource (s : State) (a : Addr) : s.Keeps (s.latchSource a) :=
  ⟨fun h => { h with }, rfl, rfl, rfl, rfl, rfl⟩

theorem State.keeps_setActive (s : State) {n : BitVec 10} (h1 : 1 ≤ n.toNat) (h2 : n.toNat ≤ 512) : s.Keeps (s.setActive n) :=
  ⟨fun h => { h with activePos := h1, activeMax := h2 }, rfl, rfl, rfl, rfl, rfl⟩

theorem State.keeps_copyPayload (s : State) {payload : List Byte} (hlen : payload.length ≤ 512) :
    s.Keeps (s.copyPayload payload) :=
  ⟨fun h => { h with
      slotsForm  := Memory.canonical_writeBytes h.slotsForm
      slotsRange := Memory.within_writeBytes h.slotsRange (Nat.le_refl 1) (by omega) }, rfl, rfl, rfl, rfl, rfl⟩

theorem State.keeps_writeSlot (s : State) (j : Nat) (v : Byte) : s.Keeps (s.writeSlot j v) := by
  unfold State.writeSlot
  split
  · next hj =>
    have hlt : j < 513 := Nat.lt_succ_of_le hj.2
    exact ⟨fun h => { h with
      slotsForm  := Memory.canonical_write h.slotsForm
      slotsRange := Memory.within_write h.slotsRange hj.1 hlt }, rfl, rfl, rfl, rfl, rfl⟩
  · exact .refl s

theorem State.keeps_putDatagram (s : State) {bytes : List Byte} (hlen : s.Wf → bytes.length ≤ s.par.rawCap) :
    s.Keeps (s.putDatagram bytes) :=
  ⟨fun h => { h with
      rawForm   := Memory.canonical_writeBytes h.rawForm
      rawRange  := Memory.within_writeBytes h.rawRange (Nat.le_refl 0) (by simpa using hlen h)
      rawLenMax := hlen h }, rfl, rfl, rfl, rfl, rfl⟩

theorem State.keeps_putReply (s : State) : s.Keeps s.putReply :=
  ⟨fun h => { h with
      rawForm   := canonical_storeParts h.rawForm
      rawRange  := within_storeParts h.rawRange fun q hq => (h.replyParts_le q hq).trans h.pollReplyLen_le
      rawLenMax := h.pollReplyLen_le }, rfl, rfl, rfl, rfl, rfl⟩

theorem State.keeps_applyUniverse (s : State) (c : Byte) : s.Keeps (s.applyUniverse c) := by
  unfold State.applyUniverse
  split
  · exact .refl s
  · exact s.keeps_setAddress _

theorem State.keeps_applySubnet (s : State) (c : Byte) : s.Keeps (s.applySubnet c) := by
  unfold State.applySubnet
  split
  · exact .refl s
  · exact s.keeps_setAddress _

theorem State.keeps_storeShortName (s : State) : s.Keeps s.storeShortName := by
  unfold State.storeShortName
  split
  · exact ⟨fun h => { h with shortLength := Memory.length_readBytes _ _ _ }, rfl, rfl, rfl, rfl, rfl⟩
  · exact .refl s

theorem State.keeps_storeLongName (s : State) : s.Keeps s.storeLongName := by
  unfold State.storeLongName
  split
  · exact ⟨fun h => { h with longLength := Memory.length_readBytes _ _ _ }, rfl, rfl, rfl, rfl, rfl⟩
  · exact .refl s

theorem State.keeps_cancelMerge (s : State) : s.Keeps s.cancelMerge := by
  unfold State.cancelMerge
  split
  · exact s.keeps_releaseLock
  · exact .refl s

theorem State.keeps_configure (s : State) : s.Keeps s.configure :=
  s.keeps_storeShortName.trans <| (State.keeps_storeLongName _).trans <| (State.keeps_applyUniverse _ _).trans <|
    (State.keeps_applySubnet _ _).trans (State.keeps_cancelMerge _)

theorem State.keeps_acceptData (s : State) {len : Nat} (h1 : 1 ≤ len) (h2 : len ≤ 512) : s.Keeps (s.acceptData len) := by
  have hcount : (BitVec.ofNat 10 len).toNat = len := Nat.mod_eq_of_lt (by omega)
  have hcopy := s.keeps_copyPayload (payload := s.dataPayload len) (by simpa [State.dataPayload] using h2)
  exact hcopy.trans <| (State.keeps_setActive _ (by omega) (by omega)).trans (State.keeps_takeLock _)

/-! ## Instructions and steps -/

/-- The instruction answers, and what it leaves is kept in the sense of `State.Keeps`. -/
def State.Answers (s : State) (o : Host.Outcome State Fault Refusal) : Prop := ∃ t, o = .next t ∧ s.Keeps t

theorem State.answers_respond {s t : State} (h : s.Keeps t) (r : Half) (d : Option Addr := none)
    (o : Option (List Byte) := none) : s.Answers (.next (t.respond r d o)) :=
  ⟨_, rfl, h.trans (t.keeps_respond r d o)⟩

theorem execDgData_answers (s : State) : s.Answers (execDgData s) := by
  refine ⟨_, execDgData_eq s, ?_⟩
  split
  · exact s.keeps_showing _
  · split
    · next haccept =>
      obtain ⟨⟨-, -, hcount⟩, -⟩ := haccept
      exact (s.keeps_acceptData (by omega) s.payloadCount_le).trans (State.keeps_showing _ _)
    · exact s.keeps_showing _

theorem execDgAddress_answers (s : State) : s.Answers (execDgAddress s) := by
  refine ⟨_, execDgAddress_eq s, ?_⟩
  split
  · exact s.keeps_showing _
  · exact s.keeps_configure.trans (State.keeps_showing _ _)

theorem runDatagram_answers (d : Datagram) (s : State) : s.Answers (runDatagram d s) := by
  cases d with
  | data => exact execDgData_answers s
  | address => exact execDgAddress_answers s
  | poll => exact State.answers_respond (.refl s) _
  | pollReply => exact State.answers_respond (.refl s) _
  | other op => exact State.answers_respond (.refl s) _

theorem execDecode_answers (s : State) : s.Answers (execDecode s) := by
  obtain ⟨-, hnop⟩ | ⟨op, -, harm⟩ := execDecode_cases s
  · exact ⟨_, hnop, s.keeps_showing _⟩
  · exact harm ▸ runDatagram_answers _ s

theorem execSetNumSlots_answers (n : Half) (s : State) : s.Answers (execSetNumSlots n s) := by
  unfold execSetNumSlots slotCap
  split
  · next hn =>
    have hcount : (n.setWidth 10).toNat = n.toNat := by
      rw [BitVec.toNat_setWidth]
      exact Nat.mod_eq_of_lt (by omega)
    exact State.answers_respond (s.keeps_setActive (by omega) (by omega)) _
  · exact State.answers_respond (.refl s) _

/-- R210 and R33: every instruction answers from every state, and keeps what `State.Keeps` says. -/
theorem exec_answers (i : Instr) (s : State) : s.Answers (exec i s) := by
  cases i with
  | rxload src bytes =>
    have hlen : (bytes.take s.par.rawCap).length ≤ s.par.rawCap := List.length_take_le _ _
    exact State.answers_respond ((s.keeps_putDatagram fun _ => hlen).trans (State.keeps_latchSource _ src)) _
  | decode => exact execDecode_answers s
  | encData dest =>
    have hput : s.Keeps (s.putDatagram s.dataDatagram) := s.keeps_putDatagram State.Wf.length_dataDatagram_le
    exact State.answers_respond (hput.trans (State.keeps_advanceSeq _)) _ _
  | encPollReply pollSrc => exact State.answers_respond s.keeps_putReply _ _
  | setUniverse u => exact State.answers_respond (s.keeps_setAddress _) _
  | setSubnetUniverse sub u => exact State.answers_respond (s.keeps_setAddress _) _
  | setUniverseAddress c => exact State.answers_respond (s.keeps_applyUniverse c) _
  | setSubnetAddress c => exact State.answers_respond (s.keeps_applySubnet c) _
  | setNumSlots n => exact execSetNumSlots_answers n s
  | setSlot idx v => exact State.answers_respond (s.keeps_writeSlot _ v) _
  | dgData => exact execDgData_answers s
  | dgAddress => exact execDgAddress_answers s
  | readSlots => exact State.answers_respond (.refl s) _ _ _
  | getUniverse | getSubnetUniverse | getNumSlots | getSlot idx | reservedF | dgPoll | dgPollReply | dgOther op =>
    exact State.answers_respond (.refl s) _

theorem exec_keeps {i : Instr} {s t : State} (h : exec i s = .next t) : s.Keeps t := by
  obtain ⟨u, hu, hkeeps⟩ := exec_answers i s
  obtain rfl : u = t := by simpa [hu] using h
  exact hkeeps

/-- R34 meets R33, for every value of the parameters that R8 admits and all construction inputs. -/
theorem State.wf_resetOf {p : Params} (hp : p.Valid) (nodeAddr : Addr) (bcast : Option Addr) (port : List Request) :
    (State.resetOf p nodeAddr bcast port).Wf := by
  have ⟨_, hpos, hmax, _, hshort, hlong, _⟩ := hp
  exact
    { params := hp, slotsForm := Memory.canonical_nil, slotsRange := List.forall_mem_nil _
      rawForm := Memory.canonical_nil, rawRange := List.forall_mem_nil _, activePos := hpos, activeMax := hmax
      rawLenMax := Nat.zero_le _, shortLength := hshort, longLength := hlong
      noBcast := fun hnone => by
        cases bcast with
        | none => rfl
        | some a => cases hnone }

/-- The invariant does not read the owner's requests. -/
theorem State.Wf.withPort {s : State} (h : s.Wf) (port : List Request) : { s with port := port }.Wf := { h with }

/-- Settles O7 by the cases of a step: idling, a reset (`State.wf_resetOf`), or an instruction (`exec_keeps`). -/
theorem stepKeepsInvariant : Obligations.StepKeepsInvariant := by
  unfold Obligations.StepKeepsInvariant
  intro s t hs ht
  obtain ⟨-, hidle⟩ | ⟨nodeAddr, bcast, rest, hport, hreset⟩ | ⟨c, rest, -, hcommand⟩ := step_cases s
  · obtain rfl : s = t := by simpa [hidle] using ht
    exact ⟨hs, rfl, .inl ⟨rfl, rfl, rfl⟩⟩
  · obtain rfl : State.resetOf s.par nodeAddr bcast rest = t := by simpa [hreset] using ht
    exact ⟨State.wf_resetOf hs.params nodeAddr bcast rest, rfl, .inr ⟨nodeAddr, bcast, rest, hport, rfl, rfl, rfl⟩⟩
  · have hkeeps : State.Keeps { s with port := rest } t := exec_keeps (hcommand ▸ ht)
    exact ⟨hkeeps.wf (hs.withPort rest), hkeeps.par, .inl ⟨hkeeps.nodeAddr, hkeeps.bcastValid, hkeeps.bcastAddr⟩⟩

end Sys2Proof.Machine

/-! # Decode and dispatch (`40_decode_dispatch.md` rules R101 to R107)

DECODE is the instruction of the datagram in `raw`: a valid header makes it run exactly what that datagram's row runs, and without
one it is NOP. -/

namespace Sys2Proof.Machine

/-! ## The datagram rows -/

/-- A kind of datagram runs what its row of the opcode table runs. -/
theorem exec_datagramInstr (d : Datagram) (s : State) : exec d.instr s = runDatagram d s := by
  cases d <;> rfl

/-- The opcode map of R74, read as rows of the opcode table. -/
theorem instr_datagramOfOpcode (op : Half) :
    (datagramOfOpcode op).instr =
      if op = 0x2000 then .dgPoll else if op = 0x2100 then .dgPollReply else if op = 0x5000 then .dgData
      else if op = 0x6000 then .dgAddress else .dgOther op := by
  simp only [datagramOfOpcode, apply_ite Datagram.instr]
  rfl

theorem exec_dgPoll (s : State) : exec .dgPoll s = .next (s.showing 0x2000) := rfl

theorem exec_dgPollReply (s : State) : exec .dgPollReply s = .next (s.showing 0x2100) := rfl

theorem exec_dgOther (op : Half) (s : State) : exec (.dgOther op) s = .next (s.showing 0x0000) := rfl

/-! ## DECODE -/

/-- R104: a valid header makes DECODE the row its opcode selects. -/
theorem exec_decode_of_holds {s : State} {op : Half} (h : s.Holds op) :
    exec .decode s = exec (datagramOfOpcode op).instr s :=
  (execDecode_of_holds h).trans (exec_datagramInstr _ s).symm

/-- The same for a datagram named by its kind. -/
theorem exec_decode_of_holds_opcode {s : State} {d : Datagram} (hd : ∀ op, d = .other op → op ∉ knownOpcodes)
    (h : s.Holds d.opcode) : exec .decode s = exec d.instr s := by
  rw [exec_decode_of_holds h, datagramOfOpcode_opcode d hd]

theorem exec_decode_of_not_holds {s : State} (h : ∀ op, ¬s.Holds op) : exec .decode s = .next (s.showing 0x0000) :=
  execDecode_of_not_holds h

theorem State.Holds.read_magic {s : State} {op : Half} (h : s.Holds op) {k : Nat} (hk : k < 8) :
    s.raw.read k = s.par.magic.getD k 0 := by
  obtain ⟨-, hmagic, -⟩ := h
  rw [← hmagic, Memory.getD_readBytes _ _ hk, Nat.zero_add]

/-! ## The statements -/

/-- Settles O14: DECODE runs the row of the opcode, and the opcode map names that row. -/
theorem decodeTakesTheArmOfTheOpcode : Obligations.DecodeTakesTheArmOfTheOpcode := by
  unfold Obligations.DecodeTakesTheArmOfTheOpcode
  intro s op h
  rw [exec_decode_of_holds h, instr_datagramOfOpcode]

/-- Settles O13: neither a short nor a foreign header is the header of a datagram with any opcode. -/
theorem decodeRejectsForeignBytes : Obligations.DecodeRejectsForeignBytes := by
  unfold Obligations.DecodeRejectsForeignBytes
  constructor
  · intro s hshort
    exact exec_decode_of_not_holds fun op ⟨hlen, _⟩ => Nat.not_le_of_lt hshort hlen
  · rintro s - ⟨k, hk, hforeign⟩
    exact exec_decode_of_not_holds fun op hholds => hforeign (hholds.read_magic hk)

/-- Settles O15: each of these rows answers its code alone, and DECODE on such a datagram is its row. -/
theorem pollReplyAndOtherArmsOnlyAnswer : Obligations.PollReplyAndOtherArmsOnlyAnswer := by
  unfold Obligations.PollReplyAndOtherArmsOnlyAnswer
  refine fun s => ⟨⟨exec_dgPoll s, fun h => ?poll⟩, ⟨exec_dgPollReply s, fun h => ?pollReply⟩,
    fun op => ⟨exec_dgOther op s, fun hpoll hreply hdata haddress h => ?other⟩⟩
  case poll => exact exec_decode_of_holds_opcode (d := .poll) nofun h
  case pollReply => exact exec_decode_of_holds_opcode (d := .pollReply) nofun h
  case other =>
    have hunknown : op ∉ knownOpcodes := by
      simpa [knownOpcodes] using ⟨hpoll, hreply, hdata, haddress⟩
    refine exec_decode_of_holds_opcode (d := .other op) (fun op' hop => ?_) h
    cases hop
    exact hunknown

end Sys2Proof.Machine

/-! # The DATA arm and the merge lock (`41_data_decode_mergelock.md` rules R120 to R131)

A DATA datagram of at least 18 bytes either reaches the arbiter and is admitted, or it answers 0x5000 and nothing else happens. -/

namespace Sys2Proof.Machine

/-! ## The arm -/

/-- R104 for DATA. -/
theorem exec_decode_of_holds_data {s : State} (h : s.Holds 0x5000) : exec .decode s = exec .dgData s :=
  exec_decode_of_holds_opcode (d := .data) nofun h

/-- What the arm answers, DECODE on that datagram answers. -/
theorem exec_dgData_and_decode {s : State} {o : Host.Outcome State Fault Refusal} (h : exec .dgData s = o) :
    exec .dgData s = o ∧ (s.Holds 0x5000 → exec .decode s = o) :=
  ⟨h, fun hholds => (exec_decode_of_holds_data hholds).trans h⟩

/-- Every outcome of DG_DATA. -/
theorem exec_dgData_eq (s : State) :
    exec .dgData s = .next (if s.rawLen < 18 then s.showing 0x0000
      else if s.ReachesArbiter ∧ ¬s.LockedAgainst then (s.acceptData s.payloadCount).showing 0x5000
      else s.showing 0x5000) := execDgData_eq s

/-- Anomalies (b), (c) and (c'): a DATA datagram of full length that is not admitted answers 0x5000 alone. -/
theorem exec_dgData_of_not_admitted {s : State} (hlen : 18 ≤ s.rawLen) (h : ¬(s.ReachesArbiter ∧ ¬s.LockedAgainst)) :
    exec .dgData s = .next (s.showing 0x5000) := by
  rw [exec_dgData_eq, if_neg (Nat.not_lt_of_le hlen), if_neg h]

/-! ## The accept action -/

@[simp] theorem State.length_dataPayload (s : State) (len : Nat) : (s.dataPayload len).length = len :=
  Memory.length_readBytes _ _ _

/-- The count the accept action leaves is the effective length: 512 at most, so the 10 bits hold it (R23). -/
theorem State.toNat_acceptData_activeSlots (s : State) :
    (s.acceptData s.payloadCount).activeSlots.toNat = s.payloadCount := by
  have hmax := s.payloadCount_le
  exact Nat.mod_eq_of_lt (by omega)

/-- The copy ends at slot `len`. -/
theorem State.read_acceptData_slots_beyond (s : State) {len j : Nat} (h : len < j) :
    (s.acceptData len).slots.read j = s.slots.read j := by
  refine Memory.read_writeBytes_outside (.inr ?_)
  rw [State.length_dataPayload]
  omega

/-! ## The statements -/

/-- Settles O21: only the accept action stores, and its copy ends at the count it sets. -/
theorem slotsBeyondTheCountStayStale : Obligations.SlotsBeyondTheCountStayStale := by
  unfold Obligations.SlotsBeyondTheCountStayStale
  intro s t ht j hj
  rw [exec_dgData_eq, Host.Outcome.next.injEq] at ht
  subst ht
  split_ifs at hj ⊢ with hshort hadmitted
  · rfl
  · rw [State.showing_activeSlots, State.toNat_acceptData_activeSlots] at hj
    exact s.read_acceptData_slots_beyond hj
  · rfl

/-- Settles O18: a datagram for another universe does not reach the arbiter. -/
theorem wrongUniverseIsDiscarded : Obligations.WrongUniverseIsDiscarded := by
  unfold Obligations.WrongUniverseIsDiscarded
  intro s hlen huniverse
  refine exec_dgData_and_decode (exec_dgData_of_not_admitted hlen ?_)
  rintro ⟨⟨-, hsame, -⟩, -⟩
  exact huniverse hsame

/-- Settles O19: a datagram from another address than the lock's holder may reach the arbiter, which discards it. -/
theorem lockedOutDataIsDiscarded : Obligations.LockedOutDataIsDiscarded := by
  unfold Obligations.LockedOutDataIsDiscarded
  intro s hlen hheld hother
  have hlocked : s.LockedAgainst := ⟨hheld, hother.symm⟩
  exact exec_dgData_and_decode (exec_dgData_of_not_admitted hlen fun hadmitted => hadmitted.2 hlocked)

end Sys2Proof.Machine

/-! # The configuration commands of the universe address (`42_address_config.md` rules R149, R150)

Each is one write of `ua`; the byte it writes is R79's rule on one nibble. -/

namespace Sys2Proof.Machine

/-! ## What the commands write -/

/-- The frame of a universe configuration byte: `ua` alone is written. -/
theorem State.applyUniverse_eq_setAddress (s : State) (c : Byte) :
    s.applyUniverse c = s.setAddress (s.applyUniverse c).ua := by
  unfold State.applyUniverse
  split <;> rfl

/-- The frame of a subnet configuration byte. -/
theorem State.applySubnet_eq_setAddress (s : State) (c : Byte) :
    s.applySubnet c = s.setAddress (s.applySubnet c).ua := by
  unfold State.applySubnet
  split <;> rfl

theorem exec_setUniverseAddress (c : Byte) (s : State) :
    exec (.setUniverseAddress c) s = .next ((s.setAddress (s.applyUniverse c).ua).showing 0x0000) := by
  rw [← State.applyUniverse_eq_setAddress]
  rfl

theorem exec_setSubnetAddress (c : Byte) (s : State) :
    exec (.setSubnetAddress c) s = .next ((s.setAddress (s.applySubnet c).ua).showing 0x0000) := by
  rw [← State.applySubnet_eq_setAddress]
  rfl

/-! ## The byte they write, as a number -/

theorem State.toNat_applyUniverse_ua (s : State) (c : Byte) :
    (s.applyUniverse c).ua.toNat =
      if c.toNat < 128 then s.ua.toNat else 16 * (s.ua.toNat / 16) + c.toNat % 16 := by
  rw [State.applyUniverse_ua, apply_ite BitVec.toNat, toNat_joinAddress, toNat_subnetOf, toNat_lowNibble]

theorem State.toNat_applySubnet_ua (s : State) (c : Byte) :
    (s.applySubnet c).ua.toNat =
      if c.toNat < 128 then s.ua.toNat else 16 * (c.toNat % 16) + s.ua.toNat % 16 := by
  rw [State.applySubnet_ua, apply_ite BitVec.toNat, toNat_joinAddress, toNat_lowNibble, toNat_universeOf]

/-! ## The statements -/

/-- Settles O32: the command is one write of `ua`, and the byte written is R79's on the universe nibble. -/
theorem setUniverseAddressObeysTheApplyBit : Obligations.SetUniverseAddressObeysTheApplyBit := by
  unfold Obligations.SetUniverseAddressObeysTheApplyBit
  exact fun u s => ⟨_, exec_setUniverseAddress u s, s.toNat_applyUniverse_ua u, rfl⟩

/-- Settles O33: the command is one write of `ua`, and the byte written is R79's on the subnet nibble. -/
theorem setSubnetAddressObeysTheApplyBit : Obligations.SetSubnetAddressObeysTheApplyBit := by
  unfold Obligations.SetSubnetAddressObeysTheApplyBit
  exact fun c s => ⟨_, exec_setSubnetAddress c s, s.toNat_applySubnet_ua c, rfl⟩

end Sys2Proof.Machine

/-! # ENC_DATA and the sequence counter (`43_data_encode.md` rules R160 to R163)

The datagram ENC_DATA leaves is `State.dataDatagram`, so a read of `raw` after the command is a read of that byte string. -/

namespace Sys2Proof.Machine

/-! ## What the command leaves -/

/-- The state ENC_DATA leaves. -/
def State.encodeData (s : State) (dest : Addr) : State :=
  (s.putDatagram s.dataDatagram).advanceSeq.respond 0x0000 (txDest := some dest)

theorem exec_encData (dest : Addr) (s : State) : exec (.encData dest) s = .next (s.encodeData dest) := rfl

@[simp] theorem State.encodeData_seq (s : State) (dest : Addr) : (s.encodeData dest).seq = s.seq + 1 := rfl

@[simp] theorem State.encodeData_port (s : State) (dest : Addr) : (s.encodeData dest).port = s.port := rfl

@[simp] theorem State.encodeData_raw (s : State) (dest : Addr) :
    (s.encodeData dest).raw = s.raw.writeBytes 0 s.dataDatagram := rfl

@[simp] theorem State.encodeData_rawLen (s : State) (dest : Addr) :
    (s.encodeData dest).rawLen = 18 + s.activeSlots.toNat := s.length_dataDatagram

/-- The frame of ENC_DATA: `raw`, `rawLen`, `seq` and the result port are written, nothing else. -/
theorem State.encodeData_eq (s : State) (dest : Addr) :
    s.encodeData dest = { s with
      raw := (s.encodeData dest).raw, rawLen := 18 + s.activeSlots.toNat, seq := s.seq + 1,
      ret := 0x0000, txDest := some dest, slotsOut := none } := by
  rw [← s.encodeData_rawLen dest]
  rfl

theorem State.Wf.encodeData {s : State} (h : s.Wf) (dest : Addr) : (s.encodeData dest).Wf :=
  (exec_keeps (exec_encData dest s)).wf h

/-- R161: the counter steps mod 256. -/
theorem State.toNat_encodeData_seq (s : State) (dest : Addr) :
    (s.encodeData dest).seq.toNat = (s.seq.toNat + 1) % 256 := by
  rw [State.encodeData_seq, BitVec.toNat_add]
  rfl

/-! ## The bytes of the datagram -/

theorem State.Wf.read_encodeData {s : State} (h : s.Wf) (dest : Addr) {k : Nat} (hk : k < 18 + s.activeSlots.toNat) :
    (s.encodeData dest).raw.read k = s.dataDatagram.getD k 0 := by
  rw [State.encodeData_raw, Memory.read_writeBytes h.rawForm, if_pos (by simpa using hk), Nat.sub_zero]

theorem State.Wf.readBytes_encodeData_magic {s : State} (h : s.Wf) (dest : Addr) :
    (s.encodeData dest).raw.readBytes 0 8 = s.par.magic := by
  have hlen : 8 ≤ s.dataDatagram.length := by simp; omega
  rw [State.encodeData_raw, ← Memory.take_readBytes _ _ hlen, Memory.readBytes_writeBytes h.rawForm, State.dataDatagram,
    State.dataFixedBytes_eq, List.append_assoc, List.take_left' s.par.length_magic]

/-- The fixed bytes after the magic, by their distance from offset 8 (R160, R76). -/
theorem State.Wf.read_encodeData_field {s : State} (h : s.Wf) (dest : Addr) (k : Nat) (hk : k < 10) :
    (s.encodeData dest).raw.read (8 + k) = [0x00, 0x50, hiByte s.par.protVer, loByte s.par.protVer, s.seq, 0x00, s.ua, 0x00,
      hiByte (s.activeSlots.setWidth 16), loByte (s.activeSlots.setWidth 16)].getD k 0 := by
  have hfixed : 8 + k < s.dataFixedBytes.length := by
    rw [State.length_dataFixedBytes]
    omega
  rw [h.read_encodeData dest (by omega), State.dataDatagram, List.getD_append _ _ _ _ hfixed, s.getD_dataFixedBytes]

/-- R161: byte 12 carries the counter before the command. -/
theorem State.Wf.read_encodeData_seq {s : State} (h : s.Wf) (dest : Addr) : (s.encodeData dest).raw.read 12 = s.seq :=
  h.read_encodeData_field dest 4 (by decide)

/-- Bytes 10 and 11 carry PROT_VER, high byte first. -/
theorem State.Wf.encodeData_protVer {s : State} (h : s.Wf) (dest : Addr) :
    256 * ((s.encodeData dest).raw.read 10).toNat + ((s.encodeData dest).raw.read 11).toNat = s.par.protVer.toNat := by
  have hhi : (s.encodeData dest).raw.read 10 = hiByte s.par.protVer := h.read_encodeData_field dest 2 (by decide)
  have hlo : (s.encodeData dest).raw.read 11 = loByte s.par.protVer := h.read_encodeData_field dest 3 (by decide)
  rw [hhi, hlo, ← toNat_joinBytes, joinBytes_hiByte_loByte]

/-- Bytes 16 and 17 carry the count as it is, high byte first (R162). -/
theorem State.Wf.encodeData_length {s : State} (h : s.Wf) (dest : Addr) :
    256 * ((s.encodeData dest).raw.read 16).toNat + ((s.encodeData dest).raw.read 17).toNat = s.activeSlots.toNat := by
  have hhi : (s.encodeData dest).raw.read 16 = hiByte (s.activeSlots.setWidth 16) := h.read_encodeData_field dest 8 (by decide)
  have hlo : (s.encodeData dest).raw.read 17 = loByte (s.activeSlots.setWidth 16) := h.read_encodeData_field dest 9 (by decide)
  rw [hhi, hlo, ← toNat_joinBytes, joinBytes_hiByte_loByte, BitVec.toNat_setWidth_of_le (by decide)]

theorem State.Wf.read_encodeData_payload {s : State} (h : s.Wf) (dest : Addr) {j : Nat} (h1 : 1 ≤ j)
    (hj : j ≤ s.activeSlots.toNat) : (s.encodeData dest).raw.read (17 + j) = s.slots.read j := by
  obtain ⟨k, rfl⟩ : ∃ k, j = 1 + k := Nat.exists_eq_add_of_le h1
  rw [← Nat.add_assoc, h.read_encodeData dest (by omega), s.getD_dataDatagram_payload (by omega)]

/-- The bytes beyond the datagram go stale. -/
theorem State.read_encodeData_beyond (s : State) (dest : Addr) {k : Nat} (hk : 18 + s.activeSlots.toNat ≤ k) :
    (s.encodeData dest).raw.read k = s.raw.read k :=
  Memory.read_writeBytes_outside (.inr (by simpa using hk))

/-- Settles O41: the frame, then the fields in the order of their offsets. -/
theorem encDataBuildsTheDatagram : Obligations.EncDataBuildsTheDatagram := by
  unfold Obligations.EncDataBuildsTheDatagram
  intro dest s hs
  exact ⟨s.encodeData dest, exec_encData dest s, s.encodeData_eq dest, hs.readBytes_encodeData_magic dest,
    hs.read_encodeData_field dest 0 (by decide), hs.read_encodeData_field dest 1 (by decide),
    hs.encodeData_protVer dest, hs.read_encodeData_seq dest, hs.read_encodeData_field dest 5 (by decide),
    hs.read_encodeData_field dest 6 (by decide), hs.read_encodeData_field dest 7 (by decide),
    hs.encodeData_length dest, fun j => hs.read_encodeData_payload dest, fun k => s.read_encodeData_beyond dest⟩

/-! ## No other instruction writes the counter -/

/-- The outcome's state, if it has one, shows the counter `n`. -/
def LeavesSeq (n : Byte) (o : Host.Outcome State Fault Refusal) : Prop := ∀ t, o = .next t → t.seq = n

theorem leavesSeq_next {n : Byte} {u : State} (h : u.seq = n) : LeavesSeq n (.next u) := by
  rintro t ⟨⟩
  exact h

theorem execDgData_leavesSeq (s : State) : LeavesSeq s.seq (execDgData s) := by
  rw [execDgData_eq]
  apply leavesSeq_next
  split_ifs <;> rfl

theorem execDgAddress_leavesSeq (s : State) : LeavesSeq s.seq (execDgAddress s) := by
  rw [execDgAddress_eq]
  apply leavesSeq_next
  split_ifs <;> simp

theorem runDatagram_leavesSeq (d : Datagram) (s : State) : LeavesSeq s.seq (runDatagram d s) := by
  cases d with
  | data => exact execDgData_leavesSeq s
  | address => exact execDgAddress_leavesSeq s
  | poll | pollReply | other op => exact leavesSeq_next rfl

theorem execDecode_leavesSeq (s : State) : LeavesSeq s.seq (execDecode s) := by
  obtain ⟨-, hnop⟩ | ⟨op, -, harm⟩ := execDecode_cases s
  · exact hnop ▸ leavesSeq_next rfl
  · exact harm ▸ runDatagram_leavesSeq _ s

theorem execSetNumSlots_leavesSeq (n : Half) (s : State) : LeavesSeq s.seq (execSetNumSlots n s) := by
  unfold execSetNumSlots
  split <;> exact leavesSeq_next rfl

theorem exec_leavesSeq {i : Instr} (s : State) (hi : ∀ dest, i ≠ .encData dest) : LeavesSeq s.seq (exec i s) := by
  cases i with
  | encData dest => exact absurd rfl (hi dest)
  | decode => exact execDecode_leavesSeq s
  | dgData => exact execDgData_leavesSeq s
  | dgAddress => exact execDgAddress_leavesSeq s
  | setNumSlots n => exact execSetNumSlots_leavesSeq n s
  | setSlot idx v => exact leavesSeq_next (s.writeSlot_seq idx.toNat v)
  | setUniverseAddress c => exact leavesSeq_next (s.applyUniverse_seq c)
  | setSubnetAddress c => exact leavesSeq_next (s.applySubnet_seq c)
  | rxload | encPollReply | setUniverse | setSubnetUniverse | getUniverse | getSubnetUniverse | getNumSlots | getSlot
  | readSlots | reservedF | dgPoll | dgPollReply | dgOther => exact leavesSeq_next rfl

/-! ## A run of ENC_DATA commands -/

theorem step_command {s : State} {t : Transaction} {rest : List Request} (h : s.port = .command t :: rest) :
    step s = exec (decodeCommand t) { s with port := rest } := by
  unfold step
  rw [takeRequest_eq_some.mpr ⟨rest, h, rfl⟩]

/-- SEND_DATA runs as ENC_DATA (`30_encoding.md` rule R87). -/
theorem step_sendData {s : State} {p : Params} {dest : Addr} {rest : List Request} (h : s.port = sendData p dest ++ rest) :
    step s = .next ({ s with port := rest }.encodeData dest) :=
  (step_command h).trans (exec_encData dest _)

theorem step_reset {s : State} {nodeAddr : Addr} {bcast : Option Addr} {rest : List Request}
    (h : s.port = .reset nodeAddr bcast :: rest) : step s = .next (State.resetOf s.par nodeAddr bcast rest) := by
  unfold step
  rw [takeRequest_eq_some.mpr ⟨rest, h, rfl⟩]
  rfl

/-- The last of `n + 1` ENC_DATA commands carries the counter `n` steps on. -/
theorem run_sendData (n : Nat) {s : State} (hs : s.Wf) {p : Params} {dest : Addr} {rest : List Request}
    (hport : s.port = (List.replicate (n + 1) (sendData p dest)).flatten ++ rest) :
    ∃ t, Host.Core.run Sys2Proof.core (n + 1) s = .next t ∧ t.port = rest ∧
      (t.raw.read 12).toNat = (s.seq.toNat + n) % 256 := by
  induction n generalizing s with
  | zero =>
    refine ⟨_, run_succ (step_sendData (p := p) hport), rfl, ?_⟩
    rw [(hs.withPort rest).read_encodeData_seq]
    exact (Nat.mod_eq_of_lt s.seq.isLt).symm
  | succ n ih =>
    rw [List.replicate_succ, List.flatten_cons, List.append_assoc] at hport
    rw [run_succ (step_sendData hport)]
    obtain ⟨t, hrun, hrest, hseq⟩ := ih ((hs.withPort _).encodeData dest) (State.encodeData_port _ dest)
    refine ⟨t, hrun, hrest, ?_⟩
    rw [hseq, State.toNat_encodeData_seq, Nat.mod_add_mod, Nat.add_right_comm, Nat.add_assoc]

/-- Settles O42: `exec_leavesSeq` and ENC_DATA's equations give one command, `run_sendData` from the reset state the run. -/
theorem sequenceCountsEncodedDatagrams : Obligations.SequenceCountsEncodedDatagrams := by
  unfold Obligations.SequenceCountsEncodedDatagrams
  constructor
  · intro i s t ht
    refine ⟨fun hi => exec_leavesSeq s hi t ht, ?_⟩
    rintro dest rfl hs
    obtain rfl : s.encodeData dest = t := by simpa [exec_encData] using ht
    exact ⟨hs.read_encodeData_seq dest, s.toNat_encodeData_seq dest⟩
  · intro n s nodeAddr bcast dest rest hpar hn hport
    obtain ⟨m, rfl⟩ : ∃ m, n = m + 1 := Nat.exists_eq_add_of_le' hn
    rw [run_succ (step_reset hport)]
    exact run_sendData m (State.wf_resetOf hpar nodeAddr bcast _) rfl

end Sys2Proof.Machine

/-! # The destination of ENC_POLL_REPLY (`44_poll_reply_encode.md` rule R171) -/

namespace Sys2Proof.Machine

theorem exec_encPollReply (pollSrc : Addr) (s : State) :
    exec (.encPollReply pollSrc) s = .next (s.putReply.respond 0x0000 (txDest := some (s.replyDest pollSrc))) := rfl

theorem State.replyDest_of_bcastValid {s : State} (h : s.bcastValid = true) (pollSrc : Addr) :
    s.replyDest pollSrc = s.bcastAddr := if_pos h

theorem State.replyDest_of_not_bcastValid {s : State} (h : s.bcastValid = false) (pollSrc : Addr) :
    s.replyDest pollSrc = pollSrc := if_neg (Bool.eq_false_iff.mp h)

theorem txDest_of_exec_encPollReply {pollSrc : Addr} {s t : State} (h : exec (.encPollReply pollSrc) s = .next t) :
    t.txDest = some (s.replyDest pollSrc) := by
  rw [exec_encPollReply] at h
  cases h
  exact State.respond_txDest ..

/-- Settles O44: the port shows `State.replyDest`, and `bcastValid` chooses its branch. -/
theorem replyGoesToBroadcastOrSender : Obligations.ReplyGoesToBroadcastOrSender := by
  unfold Obligations.ReplyGoesToBroadcastOrSender
  intro pollSrc s t ht
  rw [txDest_of_exec_encPollReply ht]
  exact ⟨fun hvalid => congrArg some (State.replyDest_of_bcastValid hvalid pollSrc),
    fun hnone => congrArg some (State.replyDest_of_not_bcastValid hnone pollSrc)⟩

end Sys2Proof.Machine

/-! # The range of SET_NUM_SLOTS (`45_slot_buffer_ops.md` rule R190) -/

namespace Sys2Proof.Machine

theorem exec_setNumSlots_of_inRange {n : Half} (h : 1 ≤ n.toNat ∧ n.toNat ≤ 512) (s : State) :
    exec (.setNumSlots n) s = .next ((s.setActive (n.setWidth 10)).showing 0x0000) := if_pos h

theorem exec_setNumSlots_of_outOfRange {n : Half} (h : n.toNat = 0 ∨ 512 < n.toNat) (s : State) :
    exec (.setNumSlots n) s = .next (s.showing 0x0000) :=
  have hrange : ¬(1 ≤ n.toNat ∧ n.toNat ≤ 512) := by omega
  if_neg hrange

/-- The 10 bits of `activeSlots` hold every count up to 512. -/
theorem toNat_setWidth_slotCount {n : Half} (h : n.toNat ≤ 512) : (n.setWidth 10).toNat = n.toNat := by
  rw [BitVec.toNat_setWidth]
  exact Nat.mod_eq_of_lt (by omega)

/-- Settles O35: the command's range test takes the count, which `activeSlots` holds uncut, or leaves the state. -/
theorem setNumSlotsTakesOneTo512 : Obligations.SetNumSlotsTakesOneTo512 := by
  unfold Obligations.SetNumSlotsTakesOneTo512
  intro n s
  constructor
  · intro hrange
    exact ⟨_, exec_setNumSlots_of_inRange hrange s, toNat_setWidth_slotCount hrange.2, rfl⟩
  · intro hout
    exact exec_setNumSlots_of_outOfRange hout s

end Sys2Proof.Machine

/-! # No command faults or stops (`60_exceptions.md` rule R210) -/

namespace Sys2Proof.Machine

/-- Settles O8: every instruction answers from every state, and its answer keeps the invariant (`exec_answers`). -/
theorem everyInstructionCompletes : Obligations.EveryInstructionCompletes := by
  unfold Obligations.EveryInstructionCompletes
  intro i s hs
  obtain ⟨t, hnext, hkeeps⟩ := exec_answers i s
  exact ⟨t, hnext, hkeeps.wf hs⟩

end Sys2Proof.Machine

/-! # The encoding (`30_encoding.md` rules R71 to R74, R84)

A code is read off the decoded command's row of the opcode table, an opcode off the decoded datagram's kind; and a datagram's first
10 bytes are the header of its opcode. -/

namespace Sys2Proof

/-! ## Commands -/

/-- Every transaction decodes to an instruction in the row of its own code. -/
theorem tableRow_decodeCommand (t : Transaction) : (decodeCommand t).tableRow = (t.cmd.toNat, 0xF) := by
  have hcode : t.cmd.toNat < 16 := t.cmd.isLt
  unfold decodeCommand
  split
  case h_16 =>
    simp only [imp_false] at *
    have hreserved : t.cmd.toNat = 15 := by omega
    simp [Instr.tableRow, hreserved]
  all_goals simp only [Instr.tableRow, *]

theorem decodeCommand_cmd_inj {t u : Transaction} (h : decodeCommand t = decodeCommand u) : t.cmd = u.cmd := by
  have hrow := congrArg Instr.tableRow h
  rw [tableRow_decodeCommand, tableRow_decodeCommand] at hrow
  exact BitVec.eq_of_toNat_eq (congrArg Prod.fst hrow)

/-! ## Datagram headers -/

/-- The header decoder on exactly the header bytes of an opcode. -/
theorem decodeDatagram_headerBytes (p : Params) (op : Half) :
    decodeDatagram p (headerBytes p op) = .ok (datagramOfOpcode op) := by
  have hmagic : (headerBytes p op).take 8 = p.magic := List.take_left' p.length_magic
  have hlo : (headerBytes p op).getD 8 0 = loByte op := by
    rw [headerBytes, List.getD_append_right _ _ _ _ (by simp)]
    simp
  have hhi : (headerBytes p op).getD 9 0 = hiByte op := by
    rw [headerBytes, List.getD_append_right _ _ _ _ (by simp)]
    simp
  have hlen : ¬(headerBytes p op).length < headerLen := by simp [headerLen]
  rw [decodeDatagram, if_neg hlen, if_neg (not_not.mpr hmagic), hlo, hhi, joinBytes_hiByte_loByte]

theorem decodeWire_headerBytes {p : Params} {d : Datagram} (hd : ∀ op, d = .other op → op ∉ knownOpcodes) :
    decodeWire p (.datagram (headerBytes p d.opcode)) = .ok d.instr := by
  rw [decodeWire, decodeDatagram_headerBytes, Machine.datagramOfOpcode_opcode d hd]
  rfl

/-- Whatever the header decoder accepts starts with the header bytes of the opcode it reports. -/
theorem take_of_decodeDatagram {p : Params} {b : List Byte} {d : Datagram} (h : decodeDatagram p b = .ok d) :
    10 ≤ b.length ∧ b.take 10 = headerBytes p d.opcode := by
  unfold decodeDatagram headerLen at h
  split_ifs at h with hlen hmagic
  obtain rfl := Except.ok.inj h
  have hlen' : 10 ≤ b.length := by omega
  have hsplit : b.take 10 = b.take 8 ++ [b.getD 8 0, b.getD 9 0] := by
    have h8 : 8 < b.length := by omega
    have h9 : 9 < b.length := by omega
    calc b.take 10 = b.take 8 ++ b[8]?.toList ++ b[9]?.toList := by rw [← List.take_add_one, ← List.take_add_one]
      _ = b.take 8 ++ [b.getD 8 0, b.getD 9 0] := by
        rw [List.append_assoc, List.getD_eq_getElem _ _ h8, List.getD_eq_getElem _ _ h9, List.getElem?_eq_getElem h8,
          List.getElem?_eq_getElem h9]
        rfl
  rw [hsplit, not_not.mp hmagic, Machine.opcode_datagramOfOpcode, headerBytes, hiByte_joinBytes, loByte_joinBytes]
  exact ⟨hlen', rfl⟩

/-! ## The statements -/

/-- Settles O3 by the cases of an instruction: a command's operands stand where its transaction puts them, and a datagram row is
read off its header bytes. -/
theorem decodeUndoesEncode : Obligations.DecodeUndoesEncode := by
  unfold Obligations.DecodeUndoesEncode
  intro p i hi
  cases i with
  | dgPoll => exact decodeWire_headerBytes (d := .poll) nofun
  | dgPollReply => exact decodeWire_headerBytes (d := .pollReply) nofun
  | dgData => exact decodeWire_headerBytes (d := .data) nofun
  | dgAddress => exact decodeWire_headerBytes (d := .address) nofun
  | dgOther op =>
    refine decodeWire_headerBytes (d := .other op) fun op' hop => ?_
    cases hop
    simpa [Instr.wellFormed] using hi
  | setUniverse u | setSubnetUniverse sub u | setUniverseAddress c | setSubnetAddress c =>
    simp [encode, decodeWire, decodeCommand, bareCommand]
  | rxload | decode | encData | encPollReply | getUniverse | getSubnetUniverse | setNumSlots | getNumSlots | setSlot | getSlot
  | readSlots | reservedF => rfl

/-- Settles O4: the code is in the decoded command's table row, and equal kinds have equal header bytes. -/
theorem noTwoOpcodesShareAnInstruction : Obligations.NoTwoOpcodesShareAnInstruction := by
  unfold Obligations.NoTwoOpcodesShareAnInstruction
  refine ⟨fun t u h => decodeCommand_cmd_inj h, fun p b c d hb hc => ?_⟩
  obtain ⟨hlen, hheader⟩ := take_of_decodeDatagram hb
  obtain ⟨-, hheader'⟩ := take_of_decodeDatagram hc
  have hmagic : b.take 8 = p.magic := by
    calc b.take 8 = (b.take 10).take 8 := by rw [List.take_take]; rfl
      _ = p.magic := by rw [hheader]; exact List.take_left' p.length_magic
  exact ⟨hlen, hmagic, hheader.trans hheader'.symm⟩

/-- Settles O2: the decoders evaluated on the words of the vectors. -/
theorem sampleWordsDecodeAsEncoded : Obligations.SampleWordsDecodeAsEncoded := by
  unfold Obligations.SampleWordsDecodeAsEncoded
  decide

end Sys2Proof

/-! # Requests and reset (`70_reset_and_hazards.md` rules R230, R233, R245) -/

namespace Sys2Proof.Machine

theorem step_idle {s : State} (h : s.port = []) : step s = .next s := by
  unfold step
  rw [takeRequest_eq_none.mpr h]

/-- Every transaction with the reserved code decodes to the reserved instruction. -/
theorem decodeCommand_of_reservedCode {t : Transaction} (h : t.cmd = 0xF) : decodeCommand t = .reservedF := by
  rw [decodeCommand, h]
  rfl

theorem exec_reservedF (s : State) : exec .reservedF s = .next (s.showing 0x0000) := rfl

/-- Settles O1: the three cases of the next request. -/
theorem stepServesOwnerRequests : Obligations.StepServesOwnerRequests := by
  unfold Obligations.StepServesOwnerRequests
  exact ⟨fun _ _ _ => step_command, fun _ _ _ _ => step_reset, fun _ => step_idle⟩

/-- Settles O5: the step is `State.resetOf`, whose fields are the reset values. -/
theorem resetRestoresEveryElement : Obligations.ResetRestoresEveryElement := by
  unfold Obligations.ResetRestoresEveryElement
  intro s nodeAddr bcast rest hport
  refine ⟨_, step_reset hport, rfl, rfl, rfl, rfl, rfl, fun _ => rfl, rfl, rfl, rfl, ?present, ?absent, rfl, rfl, rfl, rfl⟩
  case present =>
    rintro a rfl
    exact ⟨rfl, rfl⟩
  case absent =>
    rintro rfl
    exact ⟨rfl, rfl⟩

/-- Settles O6: every admissible parameter set has a well-formed reset state (`State.wf_resetOf`), the defaults among them. -/
theorem resetMeetsInvariant : Obligations.ResetMeetsInvariant := by
  unfold Obligations.ResetMeetsInvariant
  have hfresh : Params.fresh.Valid := by decide
  exact ⟨State.wf_resetOf hfresh _ _ _, fun _ nodeAddr bcast port hp => State.wf_resetOf hp nodeAddr bcast port⟩

/-- Settles O40: the reserved instruction answers 0x0000 alone, and its code decodes to it whatever the operands. -/
theorem reservedCodeDoesNothing : Obligations.ReservedCodeDoesNothing := by
  unfold Obligations.ReservedCodeDoesNothing
  refine ⟨exec_reservedF, fun s t rest hport hcode => ?_⟩
  rw [step_command hport, decodeCommand_of_reservedCode hcode, exec_reservedF]

end Sys2Proof.Machine

/-! # The owner's commands (`42_address_config.md` rules R147 to R152, `45_slot_buffer_ops.md`) -/

namespace Sys2Proof.Machine

/-! ## The universe address -/

theorem exec_setUniverse (u : Byte) (s : State) :
    exec (.setUniverse u) s = .next ((s.setAddress (joinAddress (subnetOf s.ua) (lowNibble u))).showing 0x0000) := rfl

theorem exec_setSubnetUniverse (sub u : Byte) (s : State) :
    exec (.setSubnetUniverse sub u) s = .next ((s.setAddress (joinAddress (lowNibble sub) (lowNibble u))).showing 0x0000) := rfl

theorem exec_getUniverse (s : State) : exec .getUniverse s = .next (s.showing ((universeOf s.ua).setWidth 16)) := rfl

theorem exec_getSubnetUniverse (s : State) : exec .getSubnetUniverse s = .next (s.showing (s.ua.setWidth 16)) := rfl

/-- Settles O31: each command is one write of `ua`, whose nibbles are the operands' low nibbles. -/
theorem setUniverseReplacesNibbles : Obligations.SetUniverseReplacesNibbles := by
  unfold Obligations.SetUniverseReplacesNibbles
  refine ⟨fun u s => ⟨_, exec_setUniverse u s, ?_, rfl⟩, fun sub u s => ⟨_, exec_setSubnetUniverse sub u s, ?_, rfl⟩⟩
  · rw [State.showing_ua, State.setAddress_ua, toNat_joinAddress, toNat_subnetOf, toNat_lowNibble]
  · rw [State.showing_ua, State.setAddress_ua, toNat_joinAddress, toNat_lowNibble, toNat_lowNibble]

/-- Settles O34: the results are `ua`'s low nibble and `ua`, widened to 16 bits. -/
theorem addressGettersReadTheNibbles : Obligations.AddressGettersReadTheNibbles := by
  unfold Obligations.AddressGettersReadTheNibbles
  refine fun s => ⟨_, _, exec_getUniverse s, ?_, exec_getSubnetUniverse s, ?_⟩
  · rw [BitVec.toNat_setWidth_of_le (by decide), toNat_universeOf]
  · rw [BitVec.toNat_setWidth_of_le (by decide)]

/-! ## The slot buffer -/

theorem exec_getNumSlots (s : State) : exec .getNumSlots s = .next (s.showing (s.activeSlots.setWidth 16)) := rfl

/-- The count, widened to the result port's 16 bits, is the count. -/
theorem toNat_setWidth_activeSlots (n : BitVec 10) : (n.setWidth 16).toNat = n.toNat :=
  BitVec.toNat_setWidth_of_le (by decide)

theorem exec_setSlot (idx : Half) (v : Byte) (s : State) :
    exec (.setSlot idx v) s = .next ((s.writeSlot idx.toNat v).showing 0x0000) := rfl

/-- An index in 1..512 makes SET_SLOT one write of the slot memory (R192). -/
theorem State.writeSlot_inRange {j : Nat} (h : 1 ≤ j ∧ j ≤ 512) (s : State) (v : Byte) :
    s.writeSlot j v = { s with slots := s.slots.write j v } := if_pos h

theorem exec_getSlot (idx : Half) (s : State) :
    exec (.getSlot idx) s = .next (s.showing ((s.readSlot idx.toNat).setWidth 16)) := rfl

theorem exec_readSlots (s : State) :
    exec .readSlots s = .next (s.respond 0x0000 (slotsOut := some (s.slots.readBytes 1 512))) := rfl

/-- Settles O37: in range the command is one memory write, out of range it is none. -/
theorem setSlotWritesOneSlot : Obligations.SetSlotWritesOneSlot := by
  unfold Obligations.SetSlotWritesOneSlot
  intro idx v s hs
  refine ⟨fun hrange => ⟨_, exec_setSlot idx v s, ?_⟩, fun hout => ?_⟩
  · rw [State.writeSlot_inRange hrange]
    exact ⟨Memory.read_write_same hs.slotsForm, fun j hj => Memory.read_write_other hj, rfl⟩
  · rw [exec_setSlot, State.writeSlot_outside v hout]

/-- Settles O38: the result is `State.readSlot`, widened to 16 bits. -/
theorem getSlotReadsOneSlot : Obligations.GetSlotReadsOneSlot := by
  unfold Obligations.GetSlotReadsOneSlot
  intro idx s
  refine ⟨_, exec_getSlot idx s, ?_⟩
  rw [BitVec.toNat_setWidth_of_le (by decide), State.readSlot_eq, apply_ite BitVec.toNat]
  rfl

/-- Settles O39: the 512 bytes on the port are the block read of slots 1..512. -/
theorem readSlotsReturnsAllSlots : Obligations.ReadSlotsReturnsAllSlots := by
  unfold Obligations.ReadSlotsReturnsAllSlots
  refine fun s => ⟨_, exec_readSlots s, Memory.length_readBytes _ _ _, fun j h1 h512 => ?_⟩
  rw [Memory.getD_readBytes _ _ (by omega), Nat.add_sub_cancel' h1]

end Sys2Proof.Machine

/-! # RXLOAD (`40_decode_dispatch.md` rule R100) -/

namespace Sys2Proof.Machine

/-- The state RXLOAD leaves. -/
def State.receive (s : State) (src : Addr) (bytes : List Byte) : State :=
  ((s.putDatagram (bytes.take s.par.rawCap)).latchSource src).showing 0x0000

theorem exec_rxload (src : Addr) (bytes : List Byte) (s : State) :
    exec (.rxload src bytes) s = .next (s.receive src bytes) := rfl

theorem State.receive_eq (s : State) (src : Addr) (bytes : List Byte) :
    s.receive src bytes = { s with
      raw := s.raw.writeBytes 0 (bytes.take s.par.rawCap), rawLen := min bytes.length s.par.rawCap, rxSrc := src,
      ret := 0x0000, txDest := none, slotsOut := none } := by
  rw [Nat.min_comm, ← List.length_take]
  rfl

theorem State.Wf.receive {s : State} (h : s.Wf) (src : Addr) (bytes : List Byte) : (s.receive src bytes).Wf :=
  (exec_keeps (exec_rxload src bytes s)).wf h

/-- The datagram RXLOAD leaves is what it was given, cut to the buffer. -/
theorem State.Wf.datagram_receive {s : State} (h : s.Wf) (src : Addr) (bytes : List Byte) :
    (s.receive src bytes).datagram = bytes.take s.par.rawCap :=
  Memory.readBytes_writeBytes h.rawForm

/-- Settles O12: the frame is `State.receive_eq`, and the bytes are one block store. -/
theorem rxloadStoresTheDatagram : Obligations.RxloadStoresTheDatagram := by
  unfold Obligations.RxloadStoresTheDatagram
  intro src bytes s hs
  refine ⟨_, exec_rxload src bytes s, ?frame, hs.datagram_receive src bytes, fun k hk => ?stale⟩
  case frame =>
    rw [State.receive_eq]
  case stale =>
    exact Memory.read_writeBytes_outside (.inr ((Nat.zero_add _).trans_le hk))

end Sys2Proof.Machine

/-! # What the DATA arm does (`41_data_decode_mergelock.md` rules R121 to R128)

The arm has three outcomes, too short, not admitted and admitted; each has an equation, and `exec_dgData_cases` says that
there is no fourth. -/

namespace Sys2Proof.Machine

/-- R121: a DATA datagram below 18 bytes answers 0x0000 alone. -/
theorem exec_dgData_of_short {s : State} (h : s.rawLen < 18) : exec .dgData s = .next (s.showing 0x0000) := by
  rw [exec_dgData_eq, if_pos h]

/-- R126, R128: an admitted DATA datagram is accepted. -/
theorem exec_dgData_of_admitted {s : State} (h : s.ReachesArbiter) (hlock : ¬s.LockedAgainst) :
    exec .dgData s = .next ((s.acceptData s.payloadCount).showing 0x5000) := by
  have ⟨hlen, _, _⟩ := h
  rw [exec_dgData_eq, if_neg (Nat.not_lt_of_le hlen), if_pos ⟨h, hlock⟩]

/-- Everything the DATA arm can do. -/
theorem exec_dgData_cases {s t : State} (h : exec .dgData s = .next t) :
    (s.rawLen < 18 ∧ t = s.showing 0x0000) ∨
    (18 ≤ s.rawLen ∧ ¬(s.ReachesArbiter ∧ ¬s.LockedAgainst) ∧ t = s.showing 0x5000) ∨
    (s.ReachesArbiter ∧ ¬s.LockedAgainst ∧ t = (s.acceptData s.payloadCount).showing 0x5000) := by
  by_cases hshort : s.rawLen < 18
  · rw [exec_dgData_of_short hshort, Host.Outcome.next.injEq] at h
    exact .inl ⟨hshort, h.symm⟩
  · have hlen : 18 ≤ s.rawLen := by omega
    by_cases hadmitted : s.ReachesArbiter ∧ ¬s.LockedAgainst
    · rw [exec_dgData_of_admitted hadmitted.1 hadmitted.2, Host.Outcome.next.injEq] at h
      exact .inr (.inr ⟨hadmitted.1, hadmitted.2, h.symm⟩)
    · rw [exec_dgData_of_not_admitted hlen hadmitted, Host.Outcome.next.injEq] at h
      exact .inr (.inl ⟨hlen, hadmitted, h.symm⟩)

/-! ## The bytes the accept action copies -/

theorem State.Wf.read_acceptData_slots {s : State} (h : s.Wf) {len j : Nat} (h1 : 1 ≤ j) (hj : j ≤ len) :
    (s.acceptData len).slots.read j = s.raw.read (17 + j) := by
  obtain ⟨k, rfl⟩ : ∃ k, j = 1 + k := Nat.exists_eq_add_of_le h1
  have hk : k < len := by omega
  rw [State.acceptData_slots, Memory.read_writeBytes_inside 0 h.slotsForm (by simpa using hk), State.dataPayload,
    Memory.getD_readBytes _ _ hk, ← Nat.add_assoc]
  rfl

theorem State.Wf.readBytes_acceptData_slots {s : State} (h : s.Wf) (len : Nat) :
    (s.acceptData len).slots.readBytes 1 len = s.raw.readBytes 18 len := by
  have hcopy := Memory.readBytes_writeBytes (a := 1) (vs := s.dataPayload len) h.slotsForm
  rwa [State.length_dataPayload] at hcopy

/-! ## The statements -/

/-- Settles O17: too short is the arm's first outcome, and with effective length 0 the datagram does not reach the arbiter. -/
theorem shortOrEmptyDataIsNotApplied : Obligations.ShortOrEmptyDataIsNotApplied := by
  unfold Obligations.ShortOrEmptyDataIsNotApplied
  refine fun s => ⟨fun hshort => exec_dgData_and_decode (exec_dgData_of_short hshort), fun hlen hempty => ?_⟩
  refine exec_dgData_and_decode (exec_dgData_of_not_admitted hlen ?_)
  rintro ⟨⟨-, -, hcount⟩, -⟩
  exact hcount hempty

/-- Settles O22: the effective length is twice the half of a minimum of the three bounds. -/
theorem effectiveLengthIsTheGreatestEvenFit : Obligations.EffectiveLengthIsTheGreatestEvenFit := by
  unfold Obligations.EffectiveLengthIsTheGreatestEvenFit
  rintro lw rawLen n rfl
  rw [effectiveLength_eq]
  exact ⟨by omega, fun m _ _ _ _ => by omega⟩

/-- Settles O20: the admitted outcome is the accept action, whose copy fills slots 1 to the count and no other. -/
theorem acceptedDataIsCopiedAndLocks : Obligations.AcceptedDataIsCopiedAndLocks := by
  unfold Obligations.AcceptedDataIsCopiedAndLocks
  intro s hs hreaches hlock
  obtain ⟨harm, hdecode⟩ := exec_dgData_and_decode (exec_dgData_of_admitted hreaches hlock)
  refine ⟨_, harm, hdecode, fun j h1 hj => hs.read_acceptData_slots h1 hj, fun j hj => ?others,
    s.toNat_acceptData_activeSlots, rfl⟩
  obtain rfl | hbeyond := hj
  · exact Memory.read_writeBytes_outside (.inl Nat.zero_lt_one)
  · exact s.read_acceptData_slots_beyond hbeyond

/-- Settles O36: the result is the count, which the invariant bounds and the accept action sets to the effective length. -/
theorem getNumSlotsReturnsTheCount : Obligations.GetNumSlotsReturnsTheCount := by
  unfold Obligations.GetNumSlotsReturnsTheCount
  refine ⟨fun s hs => ⟨_, exec_getNumSlots s, ?_⟩, fun s t hs hreaches hlock ht => ⟨_, exec_getNumSlots t, ?_⟩⟩
  · rw [toNat_setWidth_activeSlots]
    exact ⟨rfl, hs.activePos, hs.activeMax⟩
  · rw [exec_dgData_of_admitted hreaches hlock, Host.Outcome.next.injEq] at ht
    rw [toNat_setWidth_activeSlots, ← ht]
    exact s.toNat_acceptData_activeSlots

end Sys2Proof.Machine

/-! # What the ADDRESS arm does (`42_address_config.md` rules R140 to R146) -/

namespace Sys2Proof.Machine

/-! ## The arm -/

/-- R141. -/
theorem exec_dgAddress_of_short {s : State} (h : s.rawLen < s.par.addrMinLen) :
    exec .dgAddress s = .next (s.showing 0x0000) :=
  (execDgAddress_eq s).trans (by rw [if_pos h])

/-- R140, R146. -/
theorem exec_dgAddress_of_full {s : State} (h : s.par.addrMinLen ≤ s.rawLen) :
    exec .dgAddress s = .next (s.configure.showing 0x6000) :=
  (execDgAddress_eq s).trans (by rw [if_neg (Nat.not_lt_of_le h)])

/-- Everything the ADDRESS arm can do. -/
theorem exec_dgAddress_cases {s t : State} (h : exec .dgAddress s = .next t) :
    (s.rawLen < s.par.addrMinLen ∧ t = s.showing 0x0000) ∨
    (s.par.addrMinLen ≤ s.rawLen ∧ t = s.configure.showing 0x6000) := by
  obtain hshort | hfull := Nat.lt_or_ge s.rawLen s.par.addrMinLen
  · rw [exec_dgAddress_of_short hshort, Host.Outcome.next.injEq] at h
    exact .inl ⟨hshort, h.symm⟩
  · rw [exec_dgAddress_of_full hfull, Host.Outcome.next.injEq] at h
    exact .inr ⟨hfull, h.symm⟩

/-- R104 for ADDRESS. -/
theorem exec_decode_of_holds_address {s : State} (h : s.Holds 0x6000) : exec .decode s = exec .dgAddress s :=
  exec_decode_of_holds_opcode (d := .address) nofun h

/-- What the ADDRESS arm answers, DECODE on that datagram answers. -/
theorem exec_dgAddress_and_decode {s : State} {o : Host.Outcome State Fault Refusal} (h : exec .dgAddress s = o) :
    exec .dgAddress s = o ∧ (s.Holds 0x6000 → exec .decode s = o) :=
  ⟨h, fun hholds => (exec_decode_of_holds_address hholds).trans h⟩

/-- R144: DECODE of a cancel-merge datagram configures the node. -/
theorem exec_decode_of_holdsCancel {s : State} (h : s.HoldsCancel) :
    exec .decode s = .next (s.configure.showing 0x6000) := by
  obtain ⟨hholds, hfull, -⟩ := h
  rw [exec_decode_of_holds_address hholds, exec_dgAddress_of_full hfull]

/-! ## What configuring writes -/

/-- The frame of the ADDRESS arm: the names, `ua`, the lock's bit and the result port are written, nothing else. -/
theorem State.configure_showing_eq (s : State) (r : Half) : s.configure.showing r = { s with
    shortName := (s.configure.showing r).shortName, longName := (s.configure.showing r).longName,
    ua := (s.configure.showing r).ua, lockValid := (s.configure.showing r).lockValid,
    ret := r, txDest := none, slotsOut := none } := by
  apply State.ext <;> simp

theorem State.configure_lockValid_of_cancel {s : State} (h : s.raw.read s.par.adCommand = 0x01) :
    s.configure.lockValid = false := by
  simp [State.configure_lockValid, h]

theorem State.configure_lockValid_iff (s : State) :
    s.configure.lockValid = true ↔ s.lockValid = true ∧ s.raw.read s.par.adCommand ≠ 0x01 := by
  simp [State.configure_lockValid]

@[simp] theorem joinAddress_subnetOf_universeOf (ua : Byte) : joinAddress (subnetOf ua) (universeOf ua) = ua := by
  apply BitVec.eq_of_toNat_eq
  rw [toNat_joinAddress, toNat_subnetOf, toNat_universeOf, Nat.div_add_mod]

theorem ua_of_exec_setUniverseAddress {c : Byte} {s t : State} (h : exec (.setUniverseAddress c) s = .next t) :
    t.ua = if c.toNat < 128 then s.ua else joinAddress (subnetOf s.ua) (lowNibble c) := by
  rw [exec_setUniverseAddress, Host.Outcome.next.injEq] at h
  rw [← h, State.showing_ua, State.setAddress_ua, State.applyUniverse_ua]

theorem ua_of_exec_setSubnetAddress {c : Byte} {s t : State} (h : exec (.setSubnetAddress c) s = .next t) :
    t.ua = if c.toNat < 128 then s.ua else joinAddress (lowNibble c) (universeOf s.ua) := by
  rw [exec_setSubnetAddress, Host.Outcome.next.injEq] at h
  rw [← h, State.showing_ua, State.setAddress_ua, State.applySubnet_ua]

/-- The universe nibble after R143: the configuration byte's low nibble if that byte has bit 7. -/
theorem State.toNat_configure_ua_mod (s : State) :
    s.configure.ua.toNat % 16 = if 128 ≤ (s.raw.read s.par.adUniverse).toNat then (s.raw.read s.par.adUniverse).toNat % 16
      else s.ua.toNat % 16 := by
  rw [← toNat_universeOf, State.configure_ua, universeOf_joinAddress, apply_ite BitVec.toNat, toNat_universeOf,
    toNat_lowNibble]
  split <;> split <;> omega

/-- The subnet nibble after R143. -/
theorem State.toNat_configure_ua_div (s : State) :
    s.configure.ua.toNat / 16 = if 128 ≤ (s.raw.read s.par.adSubnet).toNat then (s.raw.read s.par.adSubnet).toNat % 16
      else s.ua.toNat / 16 := by
  rw [← toNat_subnetOf, State.configure_ua, subnetOf_joinAddress, apply_ite BitVec.toNat, toNat_subnetOf, toNat_lowNibble]
  split <;> split <;> omega

/-! ## The statements -/

/-- Settles O27: the arm's full outcome is `State.configure`, field by field. -/
theorem addressConfiguresTheNode : Obligations.AddressConfiguresTheNode := by
  unfold Obligations.AddressConfiguresTheNode
  intro s hfull
  obtain ⟨harm, hdecode⟩ := exec_dgAddress_and_decode (exec_dgAddress_of_full hfull)
  refine ⟨s.configure.showing 0x6000, harm, hdecode, ?_, ?_, ?_, ?_, ?_, s.configure_showing_eq 0x6000⟩
  · rw [State.showing_shortName, State.configure_shortName]
  · rw [State.showing_longName, State.configure_longName]
  · rw [State.showing_ua, State.toNat_configure_ua_mod]
  · rw [State.showing_ua, State.toNat_configure_ua_div]
  · rw [State.showing_lockValid, State.configure_lockValid_iff]

/-- Settles O28: the arm's short outcome. -/
theorem shortAddressIsNotApplied : Obligations.ShortAddressIsNotApplied := by
  unfold Obligations.ShortAddressIsNotApplied
  exact fun s hshort => exec_dgAddress_and_decode (exec_dgAddress_of_short hshort)

/-- Settles O29: configuring with command byte 0x01 clears the lock's bit and none of the other three fields. -/
theorem cancelMergeClearsTheLock : Obligations.CancelMergeClearsTheLock := by
  unfold Obligations.CancelMergeClearsTheLock
  intro s hcancel
  have ⟨_, _, hcommand⟩ := hcancel
  refine ⟨s.configure.showing 0x6000, exec_decode_of_holdsCancel hcancel, ?_, by simp⟩
  rw [State.showing_lockValid, State.configure_lockValid_of_cancel hcommand]

/-- Settles O30: both orders set the nibbles that `State.configure_ua` sets, since neither command reads the other's nibble. -/
theorem wireConfigurationMatchesOwnerCommands : Obligations.WireConfigurationMatchesOwnerCommands := by
  unfold Obligations.WireConfigurationMatchesOwnerCommands
  intro s t u v w x hfull ht hu hv hw hx
  rw [exec_dgAddress_of_full hfull, Host.Outcome.next.injEq] at ht
  rw [ua_of_exec_setSubnetAddress hv, ua_of_exec_setUniverseAddress hu, ua_of_exec_setUniverseAddress hx,
    ua_of_exec_setSubnetAddress hw, ← ht, State.showing_ua, State.configure_ua]
  by_cases huni : (s.raw.read s.par.adUniverse).toNat < 128 <;> by_cases hsub : (s.raw.read s.par.adSubnet).toNat < 128 <;>
    simp [huni, hsub]

end Sys2Proof.Machine

/-! # What DECODE can do (`40_decode_dispatch.md` rules R101 to R109)

`exec_decode_cases` says it once, by the opcode in `raw`; the return codes follow. -/

namespace Sys2Proof.Machine

/-- Everything DECODE can do. -/
theorem exec_decode_cases {s t : State} (h : exec .decode s = .next t) :
    ((∀ op ∈ knownOpcodes, ¬s.Holds op) ∧ t = s.showing 0x0000) ∨
    (s.Holds 0x2000 ∧ t = s.showing 0x2000) ∨
    (s.Holds 0x2100 ∧ t = s.showing 0x2100) ∨
    (s.Holds 0x5000 ∧ exec .dgData s = .next t) ∨
    (s.Holds 0x6000 ∧ exec .dgAddress s = .next t) := by
  by_cases hholds : ∃ op, s.Holds op
  · obtain ⟨op, hop⟩ := hholds
    rw [exec_decode_of_holds hop, instr_datagramOfOpcode] at h
    split_ifs at h with hpoll hreply hdata haddress
    · rw [exec_dgPoll, Host.Outcome.next.injEq] at h
      exact .inr (.inl ⟨hpoll ▸ hop, h.symm⟩)
    · rw [exec_dgPollReply, Host.Outcome.next.injEq] at h
      exact .inr (.inr (.inl ⟨hreply ▸ hop, h.symm⟩))
    · exact .inr (.inr (.inr (.inl ⟨hdata ▸ hop, h⟩)))
    · exact .inr (.inr (.inr (.inr ⟨haddress ▸ hop, h⟩)))
    · rw [exec_dgOther, Host.Outcome.next.injEq] at h
      refine .inl ⟨fun op' hknown hop' => ?_, h.symm⟩
      obtain rfl := State.holds_unique hop hop'
      have hunknown : op ∉ knownOpcodes := by
        simpa [knownOpcodes] using ⟨hpoll, hreply, hdata, haddress⟩
      exact hunknown hknown
  · rw [exec_decode_of_not_holds fun op hop => hholds ⟨op, hop⟩, Host.Outcome.next.injEq] at h
    exact .inl ⟨fun op _ hop => hholds ⟨op, hop⟩, h.symm⟩

/-- The bytes a datagram of this opcode needs for its arm to answer the opcode (R121, R141). -/
def State.answerLength (s : State) (op : Half) : Nat :=
  if op = 0x5000 then 18 else if op = 0x6000 then s.par.addrMinLen else 0

/-- DECODE answers this opcode. -/
def State.DecodeAnswers (s : State) (op : Half) : Prop := s.Holds op ∧ s.answerLength op ≤ s.rawLen

/-- R109: DECODE returns the opcode of a known datagram that is long enough, and 0x0000 when there is none. -/
theorem ret_of_exec_decode {s t : State} (h : exec .decode s = .next t) :
    (t.ret ∈ knownOpcodes ∧ s.DecodeAnswers t.ret) ∨ (t.ret = 0x0000 ∧ ∀ op ∈ knownOpcodes, ¬s.DecodeAnswers op) := by
  obtain ⟨hnone, rfl⟩ | ⟨hpoll, rfl⟩ | ⟨hreply, rfl⟩ | ⟨hdata, harm⟩ | ⟨haddress, harm⟩ := exec_decode_cases h
  · exact .inr ⟨rfl, fun op hop ⟨hholds, _⟩ => hnone op hop hholds⟩
  · exact .inl ⟨by simp [knownOpcodes], hpoll, Nat.zero_le _⟩
  · exact .inl ⟨by simp [knownOpcodes], hreply, Nat.zero_le _⟩
  · obtain ⟨hshort, rfl⟩ | ⟨hlen, -, rfl⟩ | ⟨⟨hlen, -⟩, -, rfl⟩ := exec_dgData_cases harm
    · refine .inr ⟨rfl, fun op _ ⟨hholds, hlen⟩ => ?_⟩
      obtain rfl := State.holds_unique hdata hholds
      exact Nat.not_le_of_lt hshort hlen
    · exact .inl ⟨by simp [knownOpcodes], hdata, hlen⟩
    · exact .inl ⟨by simp [knownOpcodes], hdata, hlen⟩
  · obtain ⟨hshort, rfl⟩ | ⟨hfull, rfl⟩ := exec_dgAddress_cases harm
    · refine .inr ⟨rfl, fun op _ ⟨hholds, hlen⟩ => ?_⟩
      obtain rfl := State.holds_unique haddress hholds
      exact Nat.not_le_of_lt hshort hlen
    · exact .inl ⟨by simp [knownOpcodes], haddress, hfull⟩

/-- A return code other than 0x0000 is answered exactly to the datagrams of that opcode. -/
theorem ret_eq_iff_of_exec_decode {s t : State} (h : exec .decode s = .next t) {op : Half} (hop : op ∈ knownOpcodes) :
    t.ret = op ↔ s.DecodeAnswers op := by
  obtain ⟨-, hanswer⟩ | ⟨hret, hnone⟩ := ret_of_exec_decode h
  · exact ⟨fun heq => heq ▸ hanswer, fun hother => State.holds_unique hanswer.1 hother.1⟩
  · have hne : op ≠ 0x0000 := fun heq => absurd (heq ▸ hop) (by decide)
    exact ⟨fun heq => absurd (heq.symm.trans hret) hne, fun hother => absurd hother (hnone op hop)⟩

/-- Settles O16: the codes by `ret_of_exec_decode`, each condition by `ret_eq_iff_of_exec_decode`. -/
theorem decodeReturnCodes : Obligations.DecodeReturnCodes := by
  unfold Obligations.DecodeReturnCodes
  intro s t ht
  refine ⟨?codes, (ret_eq_iff_of_exec_decode ht (by decide)).trans (and_iff_left (Nat.zero_le _)),
    (ret_eq_iff_of_exec_decode ht (by decide)).trans (and_iff_left (Nat.zero_le _)),
    ret_eq_iff_of_exec_decode ht (by decide), ret_eq_iff_of_exec_decode ht (by decide)⟩
  obtain ⟨hknown, -⟩ | ⟨hret, -⟩ := ret_of_exec_decode ht
  · exact .inr (by simpa [knownOpcodes] using hknown)
  · exact .inl hret

end Sys2Proof.Machine

/-! # What each instruction writes (`60_exceptions.md` rule R216)

`Field.WrittenBy` is the "Writes" line of each command, read by field; `exec_sameIn` says that an instruction writes nothing
else. -/

namespace Sys2Proof.Machine

/-- The state elements that some command writes; the two parts of the lock, of the names and of the buffer stand together. -/
inductive Field where
  | slots
  | activeSlots
  | ua
  | lock
  | names
  | seq
  | raw
  | rxSrc

/-- The instructions that may write an element. -/
def Field.WrittenBy : Field → Instr → Prop
  | .slots, i => i = .decode ∨ i = .dgData ∨ ∃ idx v, i = .setSlot idx v
  | .activeSlots, i => i = .decode ∨ i = .dgData ∨ ∃ n, i = .setNumSlots n
  | .ua, i => i = .decode ∨ i = .dgAddress ∨ (∃ u, i = .setUniverse u) ∨ (∃ sub u, i = .setSubnetUniverse sub u) ∨
      (∃ c, i = .setUniverseAddress c) ∨ ∃ c, i = .setSubnetAddress c
  | .lock, i => i = .decode ∨ i = .dgData ∨ i = .dgAddress
  | .names, i => i = .decode ∨ i = .dgAddress
  | .seq, i => ∃ dest, i = .encData dest
  | .raw, i => (∃ dest, i = .encData dest) ∨ (∃ src, i = .encPollReply src) ∨ ∃ src bytes, i = .rxload src bytes
  | .rxSrc, i => ∃ src bytes, i = .rxload src bytes

/-- `t` has the element as `s` has it. -/
def State.SameIn (s t : State) : Field → Prop
  | .slots => t.slots = s.slots
  | .activeSlots => t.activeSlots = s.activeSlots
  | .ua => t.ua = s.ua
  | .lock => t.lockValid = s.lockValid ∧ t.lockAddr = s.lockAddr
  | .names => t.shortName = s.shortName ∧ t.longName = s.longName
  | .seq => t.seq = s.seq
  | .raw => t.raw = s.raw ∧ t.rawLen = s.rawLen
  | .rxSrc => t.rxSrc = s.rxSrc

variable {s t : State} {f : Field}

theorem State.sameIn_showing (s : State) (r : Half) (f : Field) : s.SameIn (s.showing r) f := by
  cases f <;> simp [State.SameIn]

theorem exec_dgData_sameIn (h : exec .dgData s = .next t) (hf : ¬f.WrittenBy .dgData) : s.SameIn t f := by
  obtain ⟨-, rfl⟩ | ⟨-, -, rfl⟩ | ⟨-, -, rfl⟩ := exec_dgData_cases h
  · exact s.sameIn_showing _ f
  · exact s.sameIn_showing _ f
  · cases f <;> simp_all [State.SameIn, Field.WrittenBy]

theorem exec_dgAddress_sameIn (h : exec .dgAddress s = .next t) (hf : ¬f.WrittenBy .dgAddress) : s.SameIn t f := by
  obtain ⟨-, rfl⟩ | ⟨-, rfl⟩ := exec_dgAddress_cases h
  · exact s.sameIn_showing _ f
  · cases f <;> simp_all [State.SameIn, Field.WrittenBy]

/-- DECODE writes through its DATA and its ADDRESS arm alone. -/
theorem exec_decode_changes (h : exec .decode s = .next t) (hchanged : ¬s.SameIn t f) :
    (s.Holds 0x5000 ∧ exec .dgData s = .next t) ∨ (s.Holds 0x6000 ∧ exec .dgAddress s = .next t) := by
  obtain ⟨-, rfl⟩ | ⟨-, rfl⟩ | ⟨-, rfl⟩ | hdata | haddress := exec_decode_cases h
  · exact absurd (s.sameIn_showing _ f) hchanged
  · exact absurd (s.sameIn_showing _ f) hchanged
  · exact absurd (s.sameIn_showing _ f) hchanged
  · exact .inl hdata
  · exact .inr haddress

theorem exec_decode_changes_by_data (h : exec .decode s = .next t) (hchanged : ¬s.SameIn t f)
    (hf : ¬f.WrittenBy .dgAddress) : s.Holds 0x5000 ∧ exec .dgData s = .next t :=
  (exec_decode_changes h hchanged).resolve_right fun ⟨_, harm⟩ => hchanged (exec_dgAddress_sameIn harm hf)

theorem exec_decode_changes_by_address (h : exec .decode s = .next t) (hchanged : ¬s.SameIn t f)
    (hf : ¬f.WrittenBy .dgData) : s.Holds 0x6000 ∧ exec .dgAddress s = .next t :=
  (exec_decode_changes h hchanged).resolve_left fun ⟨_, harm⟩ => hchanged (exec_dgData_sameIn harm hf)

theorem exec_decode_sameIn (h : exec .decode s = .next t) (hf : ¬f.WrittenBy .decode) : s.SameIn t f := by
  by_contra hchanged
  obtain ⟨-, harm⟩ | ⟨-, harm⟩ := exec_decode_changes h hchanged
  · exact hchanged (exec_dgData_sameIn harm (by cases f <;> simp_all [Field.WrittenBy]))
  · exact hchanged (exec_dgAddress_sameIn harm (by cases f <;> simp_all [Field.WrittenBy]))

theorem exec_setNumSlots_sameIn {n : Half} (h : exec (.setNumSlots n) s = .next t) (hf : ¬f.WrittenBy (.setNumSlots n)) :
    s.SameIn t f := by
  by_cases hrange : 1 ≤ n.toNat ∧ n.toNat ≤ 512
  · rw [exec_setNumSlots_of_inRange hrange, Host.Outcome.next.injEq] at h
    subst h
    cases f <;> simp_all [State.SameIn, Field.WrittenBy]
  · rw [exec_setNumSlots_of_outOfRange (by omega), Host.Outcome.next.injEq] at h
    exact h ▸ s.sameIn_showing _ f

/-- R216: an element an instruction does not write is left as it was. -/
theorem exec_sameIn {i : Instr} (h : exec i s = .next t) (hf : ¬f.WrittenBy i) : s.SameIn t f := by
  cases i with
  | decode => exact exec_decode_sameIn h hf
  | dgData => exact exec_dgData_sameIn h hf
  | dgAddress => exact exec_dgAddress_sameIn h hf
  | setNumSlots n => exact exec_setNumSlots_sameIn h hf
  | rxload | encData | encPollReply | setUniverse | setSubnetUniverse | setUniverseAddress | setSubnetAddress | setSlot =>
    cases h
    cases f <;> simp_all [State.SameIn, Field.WrittenBy]
  | getUniverse | getSubnetUniverse | getNumSlots | getSlot | reservedF | dgPoll | dgPollReply | dgOther =>
    cases h
    exact s.sameIn_showing _ f
  | readSlots =>
    cases h
    cases f <;> simp [State.SameIn]

/-- The same, read the other way: only an instruction that writes an element changes it. -/
theorem writtenBy_of_changed {i : Instr} (h : exec i s = .next t) (hchanged : ¬s.SameIn t f) : f.WrittenBy i :=
  not_not.mp fun hf => hchanged (exec_sameIn h hf)

end Sys2Proof.Machine

/-! # The frame and the reach of every instruction (`60_exceptions.md` rule R216, section 2) -/

namespace Sys2Proof.Machine

/-- Settles O9: what no command writes is `State.Keeps`, the other elements are `exec_sameIn` at each field. -/
theorem frameOfEveryInstruction : Obligations.FrameOfEveryInstruction := by
  unfold Obligations.FrameOfEveryInstruction
  intro i s t h
  have hkeeps := exec_keeps h
  refine ⟨hkeeps.nodeAddr, hkeeps.bcastValid, hkeeps.bcastAddr, hkeeps.par, hkeeps.port, ?slots, ?count, ?ua, ?lock, ?names,
    ?seq, ?raw, ?rxSrc⟩
  case slots => exact fun hdecode hdata hset => exec_sameIn (f := .slots) h (by simp [Field.WrittenBy, hdecode, hdata, hset])
  case count =>
    exact fun hdecode hdata hset => exec_sameIn (f := .activeSlots) h (by simp [Field.WrittenBy, hdecode, hdata, hset])
  case ua =>
    exact fun hdecode haddress h1 h2 h3 h4 =>
      exec_sameIn (f := .ua) h (by simp [Field.WrittenBy, hdecode, haddress, h1, h2, h3, h4])
  case lock =>
    exact fun hdecode hdata haddress => exec_sameIn (f := .lock) h (by simp [Field.WrittenBy, hdecode, hdata, haddress])
  case names => exact fun hdecode haddress => exec_sameIn (f := .names) h (by simp [Field.WrittenBy, hdecode, haddress])
  case seq => exact fun hdata => exec_sameIn (f := .seq) h (by simp [Field.WrittenBy, hdata])
  case raw =>
    exact fun hdata hreply hload => exec_sameIn (f := .raw) h (by simp [Field.WrittenBy, hdata, hreply, hload])
  case rxSrc => exact fun hload => exec_sameIn (f := .rxSrc) h (by simp [Field.WrittenBy, hload])

/-! ## What a change says about its cause -/

theorem State.payloadCount_even (s : State) : s.payloadCount % 2 = 0 := Nat.mul_mod_right 2 _

/-- What runs when the DATA arm does: DECODE on a DATA datagram, or the row itself. -/
def RunsData (i : Instr) (s : State) : Prop := i = .decode ∧ s.Holds 0x5000 ∨ i = .dgData

/-- R126, R131: a change of the slots by the DATA arm is a copy that stops at the new count. -/
theorem exec_dgData_changes_slots {s t : State} (h : exec .dgData s = .next t) (hchanged : ¬s.SameIn t .slots) :
    s.raw.read 14 = s.ua ∧ ¬s.LockedAgainst ∧ ∀ j, t.activeSlots.toNat < j → t.slots.read j = s.slots.read j := by
  obtain ⟨-, rfl⟩ | ⟨-, -, rfl⟩ | ⟨⟨-, huniverse, -⟩, hlock, -⟩ := exec_dgData_cases h
  · exact absurd (s.sameIn_showing _ _) hchanged
  · exact absurd (s.sameIn_showing _ _) hchanged
  · exact ⟨huniverse, hlock, slotsBeyondTheCountStayStale s t h⟩

/-- R126: a change of the count by the DATA arm is to an effective length. -/
theorem exec_dgData_changes_count {s t : State} (h : exec .dgData s = .next t) (hchanged : ¬s.SameIn t .activeSlots) :
    2 ≤ t.activeSlots.toNat ∧ t.activeSlots.toNat ≤ 512 ∧ t.activeSlots.toNat % 2 = 0 := by
  obtain ⟨-, rfl⟩ | ⟨-, -, rfl⟩ | ⟨⟨-, -, hcount⟩, -, rfl⟩ := exec_dgData_cases h
  · exact absurd (s.sameIn_showing _ _) hchanged
  · exact absurd (s.sameIn_showing _ _) hchanged
  · have heven := s.payloadCount_even
    rw [State.showing_activeSlots, State.toNat_acceptData_activeSlots]
    exact ⟨by omega, s.payloadCount_le, heven⟩

/-- R190: a change of the count by SET_NUM_SLOTS is to its operand. -/
theorem exec_setNumSlots_changes_count {n : Half} {s t : State} (h : exec (.setNumSlots n) s = .next t)
    (hchanged : ¬s.SameIn t .activeSlots) : 1 ≤ n.toNat ∧ n.toNat ≤ 512 ∧ t.activeSlots.toNat = n.toNat := by
  by_cases hrange : 1 ≤ n.toNat ∧ n.toNat ≤ 512
  · rw [exec_setNumSlots_of_inRange hrange, Host.Outcome.next.injEq] at h
    subst h
    exact ⟨hrange.1, hrange.2, toNat_setWidth_slotCount hrange.2⟩
  · rw [exec_setNumSlots_of_outOfRange (by omega), Host.Outcome.next.injEq] at h
    exact absurd (h ▸ s.sameIn_showing _ _) hchanged

/-- The slots and the count: what is not written through the owner's own command is written by the DATA arm. -/
theorem runsData_of_changed {i : Instr} {s t : State} {f : Field} (h : exec i s = .next t) (hchanged : ¬s.SameIn t f)
    (hi : i = .decode ∨ i = .dgData) (hf : ¬f.WrittenBy .dgAddress) : RunsData i s ∧ exec .dgData s = .next t := by
  obtain rfl | rfl := hi
  · have ⟨hholds, harm⟩ := exec_decode_changes_by_data h hchanged hf
    exact ⟨.inl ⟨rfl, hholds⟩, harm⟩
  · exact ⟨.inr rfl, h⟩

/-- Settles O10: an element that changed was written (`writtenBy_of_changed`), and where DECODE wrote it, the datagram in `raw` is
one whose arm does. -/
theorem ownerAndNetworkReach : Obligations.OwnerAndNetworkReach := by
  unfold Obligations.OwnerAndNetworkReach
  intro i s t _ h
  have hkeeps := exec_keeps h
  refine ⟨fun hslots => ?slots, fun hcount => ?count, fun hua => ?ua, fun hlock => ?lock, fun hnames => ?names,
    fun hseq => writtenBy_of_changed (f := .seq) h hseq, hkeeps.nodeAddr, hkeeps.bcastValid, hkeeps.bcastAddr⟩
  case slots =>
    obtain hi | hset := or_assoc.mpr (writtenBy_of_changed (f := .slots) h hslots)
    · have ⟨hruns, harm⟩ := runsData_of_changed h (f := .slots) hslots hi (by simp [Field.WrittenBy])
      exact .inr ⟨hruns, exec_dgData_changes_slots harm hslots⟩
    · exact .inl hset
  case count =>
    obtain hi | ⟨n, rfl⟩ := or_assoc.mpr (writtenBy_of_changed (f := .activeSlots) h hcount)
    · have ⟨hruns, harm⟩ := runsData_of_changed h (f := .activeSlots) hcount hi (by simp [Field.WrittenBy])
      exact .inr ⟨hruns, exec_dgData_changes_count harm hcount⟩
    · exact .inl ⟨n, rfl, exec_setNumSlots_changes_count h hcount⟩
  case ua =>
    obtain rfl | haddress | h1 | h2 | h3 | h4 := writtenBy_of_changed (f := .ua) h hua
    · have ⟨hholds, _⟩ := exec_decode_changes_by_address (f := .ua) h hua (by simp [Field.WrittenBy])
      exact .inr (.inr (.inr (.inr (.inl ⟨rfl, hholds⟩))))
    · exact .inr (.inr (.inr (.inr (.inr haddress))))
    · exact .inl h1
    · exact .inr (.inl h2)
    · exact .inr (.inr (.inl h3))
    · exact .inr (.inr (.inr (.inl h4)))
  case lock =>
    have hchanged : ¬s.SameIn t .lock := fun ⟨h1, h2⟩ => hlock (by rw [h1, h2])
    obtain rfl | hdata | haddress := writtenBy_of_changed h hchanged
    · exact .inl ⟨rfl, (exec_decode_changes h hchanged).imp And.left And.left⟩
    · exact .inr (.inl hdata)
    · exact .inr (.inr haddress)
  case names =>
    have hchanged : ¬s.SameIn t .names := fun ⟨h1, h2⟩ => hnames (by rw [h1, h2])
    obtain rfl | haddress := writtenBy_of_changed h hchanged
    · have ⟨hholds, _⟩ := exec_decode_changes_by_address h hchanged (by simp [Field.WrittenBy])
      exact .inl ⟨rfl, hholds⟩
    · exact .inr haddress

end Sys2Proof.Machine

/-! # The merge lock (`41_data_decode_mergelock.md` section 3)

`exec_decode_lock` is the arbiter's table for DECODE: the lock stays, is cancelled, or goes to the sender of an admitted
datagram. -/

namespace Sys2Proof.Machine

/-! ## How the lock moves -/

theorem State.configure_lockValid_of_not_cancel {s : State} (h : s.raw.read s.par.adCommand ≠ 0x01) :
    s.configure.lockValid = s.lockValid := by
  rw [State.configure_lockValid, bne_iff_ne.mpr h, Bool.and_true]

/-- Everything DECODE can do to the lock. -/
theorem exec_decode_lock {s t : State} (h : exec .decode s = .next t) :
    s.SameIn t .lock ∨
    (s.HoldsCancel ∧ t.lockValid = false ∧ t.lockAddr = s.lockAddr) ∨
    (s.Holds 0x5000 ∧ s.ReachesArbiter ∧ ¬s.LockedAgainst ∧ t.lockValid = true ∧ t.lockAddr = s.rxSrc) := by
  by_cases hsame : s.SameIn t .lock
  · exact .inl hsame
  obtain ⟨hdata, harm⟩ | ⟨haddress, harm⟩ := exec_decode_changes h hsame
  · obtain ⟨-, rfl⟩ | ⟨-, -, rfl⟩ | ⟨hreaches, hlock, rfl⟩ := exec_dgData_cases harm
    · exact .inl (s.sameIn_showing _ _)
    · exact .inl (s.sameIn_showing _ _)
    · exact .inr (.inr ⟨hdata, hreaches, hlock, rfl, rfl⟩)
  · obtain ⟨-, rfl⟩ | ⟨hfull, rfl⟩ := exec_dgAddress_cases harm
    · exact .inl (s.sameIn_showing _ _)
    · by_cases hcommand : s.raw.read s.par.adCommand = 0x01
      · refine .inr (.inl ⟨⟨haddress, hfull, hcommand⟩, ?_, by simp⟩)
        rw [State.showing_lockValid, State.configure_lockValid_of_cancel hcommand]
      · refine .inl ⟨?_, by simp⟩
        rw [State.showing_lockValid, State.configure_lockValid_of_not_cancel hcommand]

/-- Everything a command of the port can do to the lock. -/
theorem exec_command_lock {c : Transaction} {s t : State} (h : exec (decodeCommand c) s = .next t) :
    s.SameIn t .lock ∨ decodeCommand c = .decode ∧ exec .decode s = .next t := by
  by_cases hsame : s.SameIn t .lock
  · exact .inl hsame
  obtain ⟨-, -, hdata, haddress, -⟩ := decodeCommand_ne_datagram c
  obtain hdecode | hi | hi := writtenBy_of_changed h hsame
  · exact .inr ⟨hdecode, hdecode ▸ h⟩
  · exact absurd hi hdata
  · exact absurd hi haddress

/-- A datagram from a sender that is locked out, of whatever kind, changes nothing that the DATA arm alone writes. -/
theorem exec_decode_sameIn_of_lockedAgainst {s t : State} {f : Field} (hlock : s.LockedAgainst)
    (h : exec .decode s = .next t) (hf : ¬f.WrittenBy .dgAddress) : s.SameIn t f := by
  by_contra hchanged
  have ⟨_, harm⟩ := exec_decode_changes_by_data h hchanged hf
  obtain ⟨-, rfl⟩ | ⟨-, -, rfl⟩ | ⟨-, hadmitted, -⟩ := exec_dgData_cases harm
  · exact hchanged (s.sameIn_showing _ _)
  · exact hchanged (s.sameIn_showing _ _)
  · exact hadmitted hlock

/-- Everything DECODE can do to slots, count and lock while the sender is locked out: nothing, or a cancel. -/
theorem exec_decode_of_lockedAgainst {s t : State} (hlock : s.LockedAgainst) (h : exec .decode s = .next t) :
    t.slots = s.slots ∧ t.activeSlots = s.activeSlots ∧
    (t.lockValid = true ∧ t.lockAddr = s.lockAddr ∨ t.lockValid = false ∧ t.HoldsCancel) := by
  have hslots : s.SameIn t .slots := exec_decode_sameIn_of_lockedAgainst hlock h (by simp [Field.WrittenBy])
  have hcount : s.SameIn t .activeSlots := exec_decode_sameIn_of_lockedAgainst hlock h (by simp [Field.WrittenBy])
  have ⟨hraw, hlen⟩ : s.SameIn t .raw := exec_sameIn h (by simp [Field.WrittenBy])
  refine ⟨hslots, hcount, ?_⟩
  obtain ⟨hvalid, haddr⟩ | ⟨hcancel, hfree, -⟩ | ⟨-, -, hadmitted, -⟩ := exec_decode_lock h
  · exact .inl ⟨hvalid.trans hlock.1, haddr⟩
  · rw [State.HoldsCancel, State.Holds, ← hraw, ← hlen, ← (exec_keeps h).par] at hcancel
    exact .inr ⟨hfree, hcancel⟩
  · exact absurd hlock hadmitted

theorem State.not_lockedAgainst_of_free {s : State} (h : s.lockValid = false) : ¬s.LockedAgainst :=
  fun ⟨hheld, _⟩ => Bool.false_ne_true (h.symm.trans hheld)

/-! ## Receiving: RXLOAD, then DECODE -/

/-- RECV runs as DECODE on the state RXLOAD leaves (`30_encoding.md` rule R87). -/
theorem run_recv {s t : State} {p : Params} {src : Addr} {bytes : List Byte} {rest : List Request}
    (hport : s.port = recv p src bytes ++ rest)
    (h : exec .decode ({ s with port := rest }.receive src bytes) = .next t) :
    Host.Core.run Sys2Proof.core 2 s = .next t := by
  have hload : step s = .next ({ s with port := issue p .decode ++ rest }.receive src bytes) :=
    (step_command hport).trans (exec_rxload src bytes _)
  have hdecode : step ({ s with port := issue p .decode ++ rest }.receive src bytes) = .next t :=
    (step_command (t := bareCommand 0x1) (rest := rest) rfl).trans h
  rw [run_succ hload, run_succ hdecode, run_zero]

/-! ## The statements -/

/-- Settles O23: the rows of the table in its order, DATA by the arm's three outcomes, the rest by `exec_decode_lock` and
the frame. -/
theorem arbiterFollowsItsTable : Obligations.ArbiterFollowsItsTable := by
  unfold Obligations.ArbiterFollowsItsTable
  refine ⟨?admitted, ?lockedOut, ?notReached, ?cancel, ?reset, ?otherDatagram, ?otherCommand⟩
  case admitted =>
    intro s hs hreaches hlock
    have hadmitted : ¬s.LockedAgainst := fun ⟨hheld, hother⟩ => by simp_all
    exact ⟨_, exec_dgData_of_admitted hreaches hadmitted, rfl, rfl, rfl, s.toNat_acceptData_activeSlots,
      hs.readBytes_acceptData_slots _⟩
  case lockedOut =>
    intro s hreaches hheld hother
    have ⟨hlen, _, _⟩ := hreaches
    exact ⟨_, exec_dgData_of_not_admitted hlen fun hadmitted => hadmitted.2 ⟨hheld, hother⟩, rfl, hheld, rfl, rfl⟩
  case notReached =>
    intro s hlen hnot
    exact ⟨_, exec_dgData_of_not_admitted hlen fun hadmitted => hnot hadmitted.1, rfl, rfl, rfl⟩
  case cancel =>
    intro s hcancel
    have ⟨t, hnext, hfree, _, hslots, _⟩ := cancelMergeClearsTheLock s hcancel
    exact ⟨t, hnext, hfree, hslots⟩
  case reset =>
    intro s nodeAddr bcast rest hport
    exact ⟨_, step_reset hport, rfl, fun _ => rfl⟩
  case otherDatagram =>
    intro s t h hdata hcancel
    obtain hsame | ⟨hcancel', _⟩ | ⟨hdata', _⟩ := exec_decode_lock h
    · exact hsame
    · exact absurd hcancel' hcancel
    · exact absurd hdata' hdata
  case otherCommand =>
    intro i s t h hdecode hdata haddress
    exact exec_sameIn (f := .lock) h (by simp [Field.WrittenBy, hdecode, hdata, haddress])

/-- Settles O24 by the cases of a step; a command that moves the lock is DECODE, by one of the moves of `exec_decode_lock`. -/
theorem lockMovesOnlyByItsInputs : Obligations.LockMovesOnlyByItsInputs := by
  unfold Obligations.LockMovesOnlyByItsInputs
  intro s t h
  obtain ⟨-, hidle⟩ | ⟨nodeAddr, bcast, rest, hport, hreset⟩ | ⟨c, rest, hport, hcommand⟩ := step_cases s
  · obtain rfl : s = t := by simpa [hidle] using h
    simp_all
  · obtain rfl : State.resetOf s.par nodeAddr bcast rest = t := by simpa [hreset] using h
    exact ⟨fun _ _ => .inl ⟨_, _, _, hport⟩, fun _ hheld => absurd hheld Bool.false_ne_true,
      fun _ hheld => absurd hheld Bool.false_ne_true⟩
  · rw [hcommand] at h
    obtain ⟨hvalid, haddr⟩ | ⟨hdecode, h⟩ := exec_command_lock h
    · simp_all
    obtain ⟨hvalid, haddr⟩ | ⟨hcancel, hfree, haddr⟩ | ⟨hdata, hreaches, hlock, hheld, haddr⟩ := exec_decode_lock h
    · simp_all
    · exact ⟨fun _ _ => .inr ⟨c, rest, hport, hdecode, hcancel⟩, fun _ hheld => by simp_all, fun _ hheld => by simp_all⟩
    · exact ⟨fun _ hfree => by simp_all, fun _ _ => ⟨haddr, c, rest, hport, hdecode, hdata, hreaches⟩,
        fun hvalid _ => haddr.trans (not_not.mp fun hne => hlock ⟨hvalid, Ne.symm hne⟩)⟩

/-- Settles O25: the state RXLOAD leaves is locked against its source (`exec_decode_of_lockedAgainst`). -/
theorem foreignSenderCannotChangeSlots : Obligations.ForeignSenderCannotChangeSlots := by
  unfold Obligations.ForeignSenderCannotChangeSlots
  intro s src bytes rest _ hheld hforeign hport
  obtain ⟨t, hdecode, hkeeps⟩ := exec_answers .decode ({ s with port := rest }.receive src bytes)
  have hlocked : State.LockedAgainst ({ s with port := rest }.receive src bytes) := ⟨hheld, hforeign.symm⟩
  obtain ⟨hslots, hcount, hlock⟩ := exec_decode_of_lockedAgainst hlocked hdecode
  exact ⟨t, run_recv hport hdecode, hslots, hcount, hkeeps.port, hlock⟩

/-- Settles O26: the cancel frees the lock, RXLOAD leaves it free, so the DATA arm is not locked out. -/
theorem cancelMergeLetsTheNextSenderIn : Obligations.CancelMergeLetsTheNextSenderIn := by
  unfold Obligations.CancelMergeLetsTheNextSenderIn
  intro s t u src bytes hs hcancel hdecode hload hdata hreaches
  have hu : u.Wf := (exec_keeps hload).wf ((exec_keeps hdecode).wf hs)
  obtain ⟨t', ht', hfree, -⟩ := cancelMergeClearsTheLock s hcancel
  obtain rfl : t' = t := by simpa [ht'] using hdecode
  obtain rfl : t'.receive src bytes = u := by simpa [exec_rxload] using hload
  have hadmitted := exec_dgData_of_admitted hreaches (State.not_lockedAgainst_of_free hfree)
  exact ⟨_, (exec_decode_of_holds_data hdata).trans hadmitted, rfl, rfl, rfl, State.toNat_acceptData_activeSlots _,
    hu.readBytes_acceptData_slots _⟩

end Sys2Proof.Machine

/-! # One datagram in two buffers (`20_memory.md` rule R60)

Two states whose buffers hold the same bytes below the same `rawLen` hold the same datagram, whatever stale bytes follow: everything
DECODE reads agrees. -/

namespace Sys2Proof.Machine

/-- The buffers hold the same datagram; the bytes at and beyond `rawLen` may differ. -/
structure State.SameDatagram (s t : State) : Prop where
  rawLen : s.rawLen = t.rawLen
  read   : ∀ k, k < s.rawLen → s.raw.read k = t.raw.read k

section SameDatagram

variable {s t : State}

theorem State.SameDatagram.symm (h : s.SameDatagram t) : t.SameDatagram s :=
  ⟨h.rawLen.symm, fun k hk => (h.read k (h.rawLen ▸ hk)).symm⟩

theorem State.SameDatagram.readBytes (h : s.SameDatagram t) {a n : Nat} (hn : a + n ≤ s.rawLen) :
    s.raw.readBytes a n = t.raw.readBytes a n :=
  Memory.readBytes_congr fun j _ => h.read (a + j) (by omega)

theorem State.SameDatagram.datagram (h : s.SameDatagram t) : s.datagram = t.datagram := by
  rw [State.datagram, State.datagram, ← h.rawLen]
  exact h.readBytes (Nat.zero_add _).le

theorem State.sameDatagram_of_datagram_eq (h : s.datagram = t.datagram) : s.SameDatagram t := by
  have hlen : s.rawLen = t.rawLen := by simpa [State.datagram] using congrArg List.length h
  refine ⟨hlen, fun k hk => ?_⟩
  have hs : s.datagram.getD k 0 = s.raw.read (0 + k) := Memory.getD_readBytes _ _ hk
  have ht : t.datagram.getD k 0 = t.raw.read (0 + k) := Memory.getD_readBytes _ _ (hlen ▸ hk)
  rw [← Nat.zero_add k, ← hs, ← ht, h]

theorem State.SameDatagram.holds (h : s.SameDatagram t) (hmagic : s.par.magic = t.par.magic) {op : Half} (hs : s.Holds op) :
    t.Holds op := by
  obtain ⟨hlen, hread, hop⟩ := hs
  refine ⟨h.rawLen ▸ hlen, ?_, ?_⟩
  · rw [← h.readBytes (by omega), hread, hmagic]
  · rw [← h.read 8 (by omega), ← h.read 9 (by omega), hop]

theorem State.SameDatagram.payloadCount (h : s.SameDatagram t) : s.payloadCount = t.payloadCount := by
  have hlen := h.rawLen
  unfold State.payloadCount
  obtain hshort | hfull := Nat.lt_or_ge s.rawLen 18
  · omega
  · rw [h.read 16 (by omega), h.read 17 (by omega), hlen]

theorem State.SameDatagram.reachesArbiter (h : s.SameDatagram t) (hua : s.ua = t.ua) (hs : s.ReachesArbiter) :
    t.ReachesArbiter := by
  obtain ⟨hlen, huniverse, hcount⟩ := hs
  refine ⟨h.rawLen ▸ hlen, ?_, h.payloadCount ▸ hcount⟩
  rw [← h.read 14 (by omega), huniverse, hua]

end SameDatagram

end Sys2Proof.Machine

/-! # A DATA datagram back through DECODE (`43_data_encode.md` rule R164) -/

namespace Sys2Proof.Machine

/-! ## The encoder's own buffer -/

@[simp] theorem State.encodeData_par (s : State) (dest : Addr) : (s.encodeData dest).par = s.par := by
  simp [State.encodeData]
@[simp] theorem State.encodeData_ua (s : State) (dest : Addr) : (s.encodeData dest).ua = s.ua := by
  simp [State.encodeData]
@[simp] theorem State.encodeData_slots (s : State) (dest : Addr) : (s.encodeData dest).slots = s.slots := by
  simp [State.encodeData]
@[simp] theorem State.encodeData_lockValid (s : State) (dest : Addr) : (s.encodeData dest).lockValid = s.lockValid := by
  simp [State.encodeData]
@[simp] theorem State.encodeData_rxSrc (s : State) (dest : Addr) : (s.encodeData dest).rxSrc = s.rxSrc := by
  simp [State.encodeData]

theorem State.Wf.holds_encodeData {s : State} (h : s.Wf) (dest : Addr) : (s.encodeData dest).Holds 0x5000 := by
  have h8 : (s.encodeData dest).raw.read 8 = 0x00 := h.read_encodeData_field dest 0 (by decide)
  have h9 : (s.encodeData dest).raw.read 9 = 0x50 := h.read_encodeData_field dest 1 (by decide)
  refine ⟨?_, ?_, ?_⟩
  · rw [State.encodeData_rawLen]
    omega
  · rw [h.readBytes_encodeData_magic, State.encodeData_par]
  · rw [h8, h9]
    rfl

/-- D11: the even part of the encoder's count. -/
theorem State.Wf.payloadCount_encodeData {s : State} (h : s.Wf) (dest : Addr) :
    (s.encodeData dest).payloadCount = 2 * (s.activeSlots.toNat / 2) := by
  have hmax := h.activeMax
  rw [State.payloadCount, h.encodeData_length, State.encodeData_rawLen]
  omega

theorem State.Wf.reachesArbiter_encodeData {s : State} (h : s.Wf) (dest : Addr) (hcount : 2 ≤ s.activeSlots.toNat) :
    (s.encodeData dest).ReachesArbiter := by
  have h14 : (s.encodeData dest).raw.read 14 = s.ua := h.read_encodeData_field dest 6 (by decide)
  refine ⟨?_, ?_, ?_⟩
  · rw [State.encodeData_rawLen]
    omega
  · rw [h14, State.encodeData_ua]
  · rw [h.payloadCount_encodeData]
    omega

/-- R57: what the arm would copy from the block's own datagram is what the slots hold. -/
theorem State.Wf.acceptData_encodeData_slots {s : State} (h : s.Wf) (dest : Addr) {len : Nat}
    (hlen : len ≤ s.activeSlots.toNat) : ((s.encodeData dest).acceptData len).slots = s.slots := by
  have hpayload : (s.encodeData dest).dataPayload len = s.slots.readBytes 1 len :=
    Memory.readBytes_congr fun j hj => by
      rw [← h.read_encodeData_payload dest (by omega : 1 ≤ 1 + j) (by omega), ← Nat.add_assoc]
      rfl
  rw [State.acceptData_slots, hpayload, State.encodeData_slots, Memory.writeBytes_readBytes_self h.slotsForm]

/-- R57 and R164's last case. -/
theorem exec_decode_encodeData {s : State} (hs : s.Wf) (dest : Addr) :
    ∃ u, exec .decode (s.encodeData dest) = .next u ∧ u.ret = 0x5000 ∧ u.slots = s.slots ∧
      (s.lockValid = false → 2 ≤ s.activeSlots.toNat →
        u.lockValid = true ∧ u.lockAddr = s.rxSrc ∧ u.activeSlots.toNat = 2 * (s.activeSlots.toNat / 2)) := by
  have hcount := hs.payloadCount_encodeData dest
  have hfreed : s.lockValid = false → ¬(s.encodeData dest).LockedAgainst := fun hfree =>
    State.not_lockedAgainst_of_free ((s.encodeData_lockValid dest).trans hfree)
  have hlen : 18 ≤ (s.encodeData dest).rawLen := by
    rw [State.encodeData_rawLen]
    omega
  rw [exec_decode_of_holds_data (hs.holds_encodeData dest)]
  by_cases hadmitted : (s.encodeData dest).ReachesArbiter ∧ ¬(s.encodeData dest).LockedAgainst
  · rw [exec_dgData_of_admitted hadmitted.1 hadmitted.2]
    refine ⟨_, rfl, State.showing_ret _ _, ?_, fun _ _ => ⟨State.showing_lockValid _ _, ?_, ?_⟩⟩
    · exact hs.acceptData_encodeData_slots dest (by omega)
    · rw [State.showing_lockAddr, State.acceptData_lockAddr, State.encodeData_rxSrc]
    · rw [State.showing_activeSlots, State.toNat_acceptData_activeSlots, hcount]
  · rw [exec_dgData_of_not_admitted hlen hadmitted]
    refine ⟨_, rfl, State.showing_ret _ _, ?_, fun hfree htwo => absurd ?_ hadmitted⟩
    · rw [State.showing_slots, State.encodeData_slots]
    · exact ⟨hs.reachesArbiter_encodeData dest htwo, hfreed hfree⟩

/-! ## Another engine's buffer -/

/-- A receiver of any admissible capacity holds the datagram the encoder sent. -/
theorem State.Wf.sameDatagram_receive {e f : State} (he : e.Wf) (hf : f.Wf) (dest src : Addr) :
    (e.encodeData dest).SameDatagram (f.receive src (e.encodeData dest).datagram) := by
  have hcap : 530 ≤ f.par.rawCap := hf.params.1
  have hmax := he.activeMax
  refine State.sameDatagram_of_datagram_eq ?_
  rw [hf.datagram_receive, List.take_of_length_le]
  rw [State.datagram, Memory.length_readBytes, State.encodeData_rawLen]
  omega

/-- R164: what DECODE makes of another engine's DATA datagram. -/
theorem exec_decode_sameDatagram_encodeData {e f : State} (he : e.Wf) (hf : f.Wf) {dest : Addr}
    (hsame : (e.encodeData dest).SameDatagram f) (hmagic : e.par.magic = f.par.magic) (hua : e.ua = f.ua)
    (hfree : f.lockValid = false) :
    ∃ t, exec .decode f = .next t ∧ t.ret = 0x5000 ∧
      (e.activeSlots.toNat = 1 → t.slots = f.slots ∧ t.activeSlots = f.activeSlots ∧ t.lockValid = false) ∧
      (2 ≤ e.activeSlots.toNat →
        t.activeSlots.toNat = 2 * (e.activeSlots.toNat / 2) ∧ t.lockValid = true ∧ t.lockAddr = f.rxSrc ∧
        (∀ j, 1 ≤ j → j ≤ 2 * (e.activeSlots.toNat / 2) → t.slots.read j = e.slots.read j) ∧
        (∀ j, 2 * (e.activeSlots.toNat / 2) < j → t.slots.read j = f.slots.read j)) := by
  have hlen : f.rawLen = 18 + e.activeSlots.toNat := hsame.rawLen.symm.trans (e.encodeData_rawLen dest)
  have hcount : f.payloadCount = 2 * (e.activeSlots.toNat / 2) := by
    rw [← hsame.payloadCount, he.payloadCount_encodeData]
  have hpos := he.activePos
  have hpar : (e.encodeData dest).par.magic = f.par.magic := by rw [State.encodeData_par, hmagic]
  rw [exec_decode_of_holds_data (hsame.holds hpar (he.holds_encodeData dest))]
  obtain hone | htwo : e.activeSlots.toNat = 1 ∨ 2 ≤ e.activeSlots.toNat := by omega
  · have hempty : ¬f.ReachesArbiter := fun ⟨_, _, hne⟩ => hne (by omega)
    exact ⟨_, exec_dgData_of_not_admitted (by omega) fun hadmitted => hempty hadmitted.1, rfl,
      fun _ => ⟨rfl, rfl, hfree⟩, fun htwo => by omega⟩
  · have hreaches := hsame.reachesArbiter ((e.encodeData_ua dest).trans hua) (he.reachesArbiter_encodeData dest htwo)
    refine ⟨_, exec_dgData_of_admitted hreaches (State.not_lockedAgainst_of_free hfree), rfl, fun hone => by omega,
      fun _ => ⟨?count, rfl, rfl, fun j h1 hj => ?copied, fun j hj => ?stale⟩⟩
    case count => exact f.toNat_acceptData_activeSlots.trans hcount
    case copied =>
      rw [State.showing_slots, hf.read_acceptData_slots h1 (hcount ▸ hj),
        ← hsame.read (17 + j) (by rw [State.encodeData_rawLen]; omega), he.read_encodeData_payload dest h1 (by omega)]
    case stale => exact f.read_acceptData_slots_beyond (hcount ▸ hj)

/-- Settles O45: RECV is RXLOAD, after which the receiver's buffer holds the sender's datagram, and DECODE of that. -/
theorem encodedDataRoundTrips : Obligations.EncodedDataRoundTrips := by
  unfold Obligations.EncodedDataRoundTrips
  intro e f sent src dest rest he hf hmagic hua hfree hsent hport
  obtain rfl : e.encodeData dest = sent := by simpa [exec_encData] using hsent
  have hf' : State.Wf { f with port := rest } := hf.withPort rest
  have hmagic' : e.par.magic = f.par.magic := by rw [Params.magic, Params.magic, hmagic]
  obtain ⟨t, hdecode, hresult⟩ := exec_decode_sameDatagram_encodeData he (hf'.receive src _)
    (he.sameDatagram_receive hf' dest src) hmagic' hua hfree
  exact ⟨t, run_recv hport hdecode, hresult⟩

end Sys2Proof.Machine

/-! # The discovery reply (`44_poll_reply_encode.md` rules R170 to R176)

`State.replyContents` lists the reply's fields with their bytes, the header as the layout has it, in two fields; no two share a
byte, so after the stores each reads back, and a byte that none covers is one of the 239 zeros. -/

namespace Sys2Proof.Machine

/-! ## Stores that share no byte -/

/-- Two stores share no byte. -/
abbrev StoresApart (p q : Nat × List Byte) : Prop := FieldsApart (p.1, p.2.length) (q.1, q.2.length)

/-- Of stores that share no byte each reads back. -/
theorem readBytes_storeParts_of_mem {m : Memory} {parts : List (Nat × List Byte)} (hm : m.Canonical)
    (hparts : parts.Pairwise StoresApart) {a : Nat} {vs : List Byte} (hmem : (a, vs) ∈ parts) :
    (storeParts m parts).readBytes a vs.length = vs := by
  obtain ⟨before, after, rfl⟩ := List.append_of_mem hmem
  obtain ⟨-, hlater, -⟩ := List.pairwise_append.mp hparts
  exact readBytes_storeParts hm (List.pairwise_cons.mp hlater).1

theorem Memory.writeBytes_append (m : Memory) (a : Nat) (us vs : List Byte) :
    m.writeBytes a (us ++ vs) = (m.writeBytes (a + us.length) vs).writeBytes a us := by
  induction us generalizing a with
  | nil => rfl
  | cons u us ih =>
    rw [List.cons_append, Memory.writeBytes, Memory.writeBytes, ih, List.length_cons, Nat.add_assoc, Nat.add_comm 1]

/-- A byte of a block is a byte of its block read. -/
theorem Memory.read_of_readBytes {m : Memory} {a : Nat} {vs : List Byte} (h : m.readBytes a vs.length = vs) {j : Nat}
    (hj : j < vs.length) : m.read (a + j) = vs.getD j 0 := by
  rw [← Memory.getD_readBytes m 0 hj, h]

/-! ## The fields of a reply -/

/-- The fields a reply is made of, the opcode and the magic first. -/
def State.replyContents (s : State) : List (Nat × List Byte) :=
  [(8, [0x00, 0x21]), (0, s.par.magic), (s.par.prNodeAddr, addrBytes s.nodeAddr), (s.par.prPort, bigEndian s.par.nodePort),
   (s.par.prFirmware, bigEndian s.par.fwVersion), (s.par.prSubnet, [(subnetOf s.ua).setWidth 8]),
   (s.par.prShortName, s.shortName), (s.par.prLongName, s.longName), (s.par.prReport, s.par.nodeReport),
   (s.par.prStatus, [s.lockStatus]), (s.par.prUniverse, [(universeOf s.ua).setWidth 8])]

/-- The buffer after ENC_POLL_REPLY: 239 zeros, then the fields. -/
theorem State.putReply_raw_eq (s : State) :
    s.putReply.raw = storeParts (s.raw.writeBytes 0 (List.replicate 239 0x00)) s.replyContents := by
  have hheader : headerBytes s.par (Datagram.opcode .pollReply) = s.par.magic ++ [0x00, 0x21] := rfl
  simp only [State.putReply_raw, State.replyParts, State.replyContents, storeParts, List.foldl_cons, List.foldl_nil, hheader,
    Memory.writeBytes_append, Params.length_magic, Nat.zero_add, pollReplyLen]

section WellFormed

variable {s : State} (h : s.Wf)
include h

/-- The fields' offsets and lengths are the layout's, the header's two exchanged. -/
theorem State.Wf.replyContents_perm :
    (s.replyContents.map fun q => (q.1, q.2.length)).Perm s.par.replyFields := by
  obtain ⟨-, -, -, -, -, -, hreport, -⟩ := h.params
  simp only [State.replyContents, Params.replyFields, List.map_cons, List.map_nil, Params.length_magic, h.shortLength,
    h.longLength, hreport]
  exact List.Perm.swap ..

theorem State.Wf.replyContents_apart : s.replyContents.Pairwise StoresApart := by
  obtain ⟨-, -, -, -, -, -, -, -, -, hapart⟩ := h.params
  have hsymm : ∀ {f g : Nat × Nat}, FieldsApart f g → FieldsApart g f := Or.symm
  have hfields : (s.replyContents.map fun q => (q.1, q.2.length)).Pairwise FieldsApart :=
    (h.replyContents_perm.pairwise_iff hsymm).mpr hapart
  rwa [List.pairwise_map] at hfields

/-- A field of the reply reads back as it was stored. -/
theorem State.Wf.readBytes_putReply {a n : Nat} {vs : List Byte} (hmem : (a, vs) ∈ s.replyContents) (hn : vs.length = n) :
    s.putReply.raw.readBytes a n = vs := by
  rw [State.putReply_raw_eq, ← hn]
  exact readBytes_storeParts_of_mem (Memory.canonical_writeBytes h.rawForm) h.replyContents_apart hmem

theorem State.Wf.read_putReply_byte {a : Nat} {v : Byte} (hmem : (a, [v]) ∈ s.replyContents) :
    s.putReply.raw.read a = v :=
  Memory.read_of_readBytes (vs := [v]) (h.readBytes_putReply hmem rfl) Nat.zero_lt_one

/-- A byte that no field covers is what the zeros left. -/
theorem State.Wf.read_putReply_uncovered {k : Nat} (hk : ∀ f ∈ s.par.replyFields, k < f.1 ∨ f.1 + f.2 ≤ k) :
    s.putReply.raw.read k = if k < 239 then 0x00 else s.raw.read k := by
  have houtside : ∀ q ∈ s.replyContents, k < q.1 ∨ q.1 + q.2.length ≤ k := fun q hq =>
    hk _ (h.replyContents_perm.subset (List.mem_map_of_mem hq))
  rw [State.putReply_raw_eq, read_storeParts_outside houtside, Memory.read_writeBytes h.rawForm,
    List.getD_eq_getElem?_getD, List.getElem?_getD_replicate_default_eq]
  simp only [List.length_replicate, Nat.zero_add, Nat.zero_le, true_and]

/-- The bytes beyond a reply go stale. -/
theorem State.Wf.read_putReply_beyond {k : Nat} (hk : 239 ≤ k) : s.putReply.raw.read k = s.raw.read k := by
  have ⟨_, _, _, _, _, _, _, _, hinside, _⟩ := h.params
  have houtside : ∀ f ∈ s.par.replyFields, k < f.1 ∨ f.1 + f.2 ≤ k := fun f hf => .inr ((hinside f hf).trans hk)
  rw [h.read_putReply_uncovered houtside, if_neg (Nat.not_lt_of_le hk)]

theorem State.Wf.readBytes_putReply_opcode : s.putReply.raw.readBytes 8 2 = [0x00, 0x21] :=
  h.readBytes_putReply (by simp [State.replyContents]) rfl

theorem State.Wf.read_putReply_opcodeLow : s.putReply.raw.read 8 = 0x00 :=
  Memory.read_of_readBytes (vs := [0x00, 0x21]) h.readBytes_putReply_opcode (j := 0) (by decide)

theorem State.Wf.read_putReply_opcodeHigh : s.putReply.raw.read 9 = 0x21 :=
  Memory.read_of_readBytes (vs := [0x00, 0x21]) h.readBytes_putReply_opcode (j := 1) (by decide)

theorem State.Wf.readBytes_putReply_magic : s.putReply.raw.readBytes 0 8 = s.par.magic :=
  h.readBytes_putReply (by simp [State.replyContents]) s.par.length_magic

theorem State.Wf.holds_putReply : s.putReply.Holds 0x2100 := by
  refine ⟨?_, ?_, ?_⟩
  · rw [State.putReply_rawLen]
    decide
  · rw [h.readBytes_putReply_magic, State.putReply_par]
  · rw [h.read_putReply_opcodeLow, h.read_putReply_opcodeHigh]
    rfl

end WellFormed

/-! ## The statements -/

/-- Settles O43: the frame, each field by `State.Wf.readBytes_putReply`, and the bytes no field covers. -/
theorem encPollReplyBuildsTheReply : Obligations.EncPollReplyBuildsTheReply := by
  unfold Obligations.EncPollReplyBuildsTheReply
  intro pollSrc s hs
  have ⟨_, _, _, _, _, _, hreport, _⟩ := hs.params
  refine ⟨_, exec_encPollReply pollSrc s, rfl, ?_⟩
  simp only [State.respond_raw]
  refine ⟨hs.readBytes_putReply_magic, hs.read_putReply_opcodeLow, hs.read_putReply_opcodeHigh,
    hs.readBytes_putReply ?nodeAddr rfl, hs.readBytes_putReply ?port rfl, hs.readBytes_putReply ?firmware rfl,
    ?subnet, ?uni, hs.readBytes_putReply ?shortName hs.shortLength, hs.readBytes_putReply ?longName hs.longLength,
    hs.readBytes_putReply ?report hreport, hs.read_putReply_byte ?status, fun k hk huncovered => ?padding,
    fun k => hs.read_putReply_beyond⟩
  case subnet =>
    rw [hs.read_putReply_byte (v := (subnetOf s.ua).setWidth 8) (by simp [State.replyContents]),
      BitVec.toNat_setWidth_of_le (by decide), toNat_subnetOf]
  case uni =>
    rw [hs.read_putReply_byte (v := (universeOf s.ua).setWidth 8) (by simp [State.replyContents]),
      BitVec.toNat_setWidth_of_le (by decide), toNat_universeOf]
  case padding => rw [hs.read_putReply_uncovered huncovered, if_pos hk]
  all_goals simp [State.replyContents, addrBytes, bigEndian, hiByte, loByte, State.lockStatus]

/-- R106: DECODE of the reply the block has just built. -/
theorem exec_decode_of_exec_encPollReply {src : Addr} {s t : State} (hs : s.Wf) (h : exec (.encPollReply src) s = .next t) :
    exec .decode t = .next (t.showing 0x2100) := by
  rw [exec_encPollReply, Host.Outcome.next.injEq] at h
  subst h
  have hholds : (s.putReply.respond 0x0000 (txDest := some (s.replyDest src))).Holds 0x2100 := hs.holds_putReply
  rw [exec_decode_of_holds_opcode (d := .pollReply) nofun hholds]
  exact exec_dgPollReply _

/-- Settles O46: the buffer holds the reply, or the DATA datagram whose payload is the slots. -/
theorem decodeReadsTheBlocksOwnOutput : Obligations.DecodeReadsTheBlocksOwnOutput := by
  unfold Obligations.DecodeReadsTheBlocksOwnOutput
  refine ⟨fun src s t hs h => exec_decode_of_exec_encPollReply hs h, fun dest s t hs h => ?_⟩
  obtain rfl : s.encodeData dest = t := by simpa [exec_encData] using h
  exact exec_decode_encodeData hs dest

end Sys2Proof.Machine

/-! # Repeating a command (`20_memory.md` rule R59, `40_decode_dispatch.md` rule R108) -/

namespace Sys2Proof.Machine

/-! ## Stores repeated -/

theorem Memory.write_write_same {m : Memory} {a : Nat} {v : Byte} (hm : m.Canonical) :
    (m.write a v).write a v = m.write a v := by
  have hself := Memory.write_read_self (a := a) (Memory.canonical_write (a := a) (v := v) hm)
  rwa [Memory.read_write_same hm] at hself

theorem Memory.writeBytes_writeBytes_same {m : Memory} {a : Nat} {vs : List Byte} (hm : m.Canonical) :
    (m.writeBytes a vs).writeBytes a vs = m.writeBytes a vs := by
  have hself := Memory.writeBytes_readBytes_self (a := a) (n := vs.length) (Memory.canonical_writeBytes (a := a) (vs := vs) hm)
  rwa [Memory.readBytes_writeBytes hm] at hself

/-- The reply's 239 bytes depend on its fields alone, not on the buffer it is put into. -/
theorem State.Wf.read_putReply_congr {s t : State} (hs : s.Wf) (ht : t.Wf) (hpar : s.par = t.par)
    (hcontents : s.replyContents = t.replyContents) {k : Nat} (hk : k < 239) :
    s.putReply.raw.read k = t.putReply.raw.read k := by
  by_cases hcovered : ∃ q ∈ s.replyContents, q.1 ≤ k ∧ k < q.1 + q.2.length
  · obtain ⟨⟨a, vs⟩, hmem, hle, hlt⟩ := hcovered
    obtain ⟨j, rfl⟩ : ∃ j, k = a + j := Nat.exists_eq_add_of_le hle
    have hj : j < vs.length := Nat.lt_of_add_lt_add_left hlt
    rw [Memory.read_of_readBytes (hs.readBytes_putReply hmem rfl) hj,
      Memory.read_of_readBytes (ht.readBytes_putReply (hcontents ▸ hmem) rfl) hj]
  · have huncovered : ∀ f ∈ s.par.replyFields, k < f.1 ∨ f.1 + f.2 ≤ k := by
      intro f hf
      obtain ⟨q, hq, rfl⟩ := List.mem_map.mp (hs.replyContents_perm.symm.subset hf)
      by_contra hin
      exact hcovered ⟨q, hq, by omega⟩
    rw [hs.read_putReply_uncovered huncovered, ht.read_putReply_uncovered (hpar ▸ huncovered), if_pos hk, if_pos hk]

theorem State.putReply_eq (s : State) : s.putReply = { s with raw := s.putReply.raw, rawLen := 239 } := rfl

/-- A reply put where the same reply stands changes nothing. -/
theorem State.Wf.putReply_putReply_raw {s t : State} (hs : s.Wf) (ht : t.Wf) (hpar : t.par = s.par)
    (hcontents : t.replyContents = s.replyContents) (hraw : t.raw = s.putReply.raw) : t.putReply.raw = s.putReply.raw := by
  refine Memory.ext (canonical_storeParts ht.rawForm) (canonical_storeParts hs.rawForm) fun k => ?_
  obtain hk | hk := Nat.lt_or_ge k 239
  · exact ht.read_putReply_congr hs hpar hcontents hk
  · rw [ht.read_putReply_beyond hk, hraw]

/-! ## Instructions repeated -/

/-- The state right after an instruction, run through it again, is left as it is, result included. -/
def Repeats (i : Instr) : Prop := ∀ s t, s.Wf → exec i s = .next t → exec i t = .next t

theorem State.setAddress_showing_self (s : State) (ua : Byte) (r : Half) :
    (((s.setAddress ua).showing r).setAddress ua).showing r = (s.setAddress ua).showing r := rfl

theorem State.Wf.receive_receive {s : State} (hs : s.Wf) (src : Addr) (bytes : List Byte) :
    (s.receive src bytes).receive src bytes = s.receive src bytes := by
  apply State.ext <;> simp [State.receive, Memory.writeBytes_writeBytes_same hs.rawForm]

theorem repeats_rxload (src : Addr) (bytes : List Byte) : Repeats (.rxload src bytes) := by
  intro s t hs h
  rw [exec_rxload, Host.Outcome.next.injEq] at h
  rw [exec_rxload, ← h, hs.receive_receive]

theorem repeats_encPollReply (src : Addr) : Repeats (.encPollReply src) := by
  intro s t hs h
  have hkeeps := exec_keeps h
  rw [exec_encPollReply, Host.Outcome.next.injEq] at h
  have hcontents : t.replyContents = s.replyContents := by
    simp [← h, State.replyContents, State.lockStatus]
  have hraw : t.putReply.raw = s.putReply.raw :=
    hs.putReply_putReply_raw (hkeeps.wf hs) hkeeps.par hcontents (by rw [← h, State.respond_raw])
  have hdest : t.replyDest src = s.replyDest src := by
    rw [State.replyDest, State.replyDest, hkeeps.bcastValid, hkeeps.bcastAddr]
  rw [exec_encPollReply, hdest, State.putReply_eq, hraw, ← h]
  rfl

theorem repeats_setUniverseAddress (c : Byte) : Repeats (.setUniverseAddress c) := by
  intro s t _ h
  rw [exec_setUniverseAddress, Host.Outcome.next.injEq] at h
  have hua : (t.applyUniverse c).ua = (s.applyUniverse c).ua := by
    rw [← h, State.applyUniverse_ua, State.showing_ua, State.setAddress_ua, State.applyUniverse_ua]
    split <;> simp
  rw [exec_setUniverseAddress, hua, ← h, State.setAddress_showing_self]

theorem repeats_setSubnetAddress (c : Byte) : Repeats (.setSubnetAddress c) := by
  intro s t _ h
  rw [exec_setSubnetAddress, Host.Outcome.next.injEq] at h
  have hua : (t.applySubnet c).ua = (s.applySubnet c).ua := by
    rw [← h, State.applySubnet_ua, State.showing_ua, State.setAddress_ua, State.applySubnet_ua]
    split <;> simp
  rw [exec_setSubnetAddress, hua, ← h, State.setAddress_showing_self]

theorem repeats_setUniverse (u : Byte) : Repeats (.setUniverse u) := by
  intro s t _ h
  rw [exec_setUniverse, Host.Outcome.next.injEq] at h
  have hsubnet : subnetOf t.ua = subnetOf s.ua := by simp [← h]
  rw [exec_setUniverse, hsubnet, ← h, State.setAddress_showing_self]

theorem repeats_setSubnetUniverse (sub u : Byte) : Repeats (.setSubnetUniverse sub u) := by
  intro s t _ h
  rw [exec_setSubnetUniverse, Host.Outcome.next.injEq] at h
  rw [exec_setSubnetUniverse, ← h, State.setAddress_showing_self]

theorem repeats_setNumSlots (n : Half) : Repeats (.setNumSlots n) := by
  intro s t _ h
  by_cases hrange : 1 ≤ n.toNat ∧ n.toNat ≤ 512
  · rw [exec_setNumSlots_of_inRange hrange, Host.Outcome.next.injEq] at h
    rw [exec_setNumSlots_of_inRange hrange, ← h]
    rfl
  · rw [exec_setNumSlots_of_outOfRange (by omega), Host.Outcome.next.injEq] at h
    rw [exec_setNumSlots_of_outOfRange (by omega), ← h, State.showing_showing]

theorem repeats_setSlot (idx : Half) (v : Byte) : Repeats (.setSlot idx v) := by
  intro s t hs h
  rw [exec_setSlot, Host.Outcome.next.injEq] at h
  rw [exec_setSlot, ← h]
  by_cases hrange : 1 ≤ idx.toNat ∧ idx.toNat ≤ 512
  · simp only [State.writeSlot_inRange hrange, State.showing, Memory.write_write_same hs.slotsForm]
  · have hout : idx.toNat = 0 ∨ 512 < idx.toNat := by omega
    rw [State.writeSlot_outside v hout, State.writeSlot_outside v hout, State.showing_showing]

theorem State.payloadCount_acceptData_showing (s : State) (len : Nat) (r : Half) :
    ((s.acceptData len).showing r).payloadCount = s.payloadCount := by
  simp only [State.payloadCount, State.showing_raw, State.showing_rawLen, State.acceptData_raw, State.acceptData_rawLen]

theorem State.Wf.acceptData_acceptData {s : State} (hs : s.Wf) (len : Nat) (r : Half) :
    (((s.acceptData len).showing r).acceptData len).showing r = (s.acceptData len).showing r := by
  apply State.ext <;> simp [State.dataPayload, Memory.writeBytes_writeBytes_same hs.slotsForm]

theorem repeats_dgData : Repeats .dgData := by
  intro s t hs h
  obtain ⟨hshort, rfl⟩ | ⟨hlen, hnot, rfl⟩ | ⟨hreaches, hlock, rfl⟩ := exec_dgData_cases h
  · exact exec_dgData_of_short hshort
  · exact exec_dgData_of_not_admitted hlen hnot
  · have hfree : ¬State.LockedAgainst ((s.acceptData s.payloadCount).showing 0x5000) := fun ⟨_, hother⟩ => hother rfl
    rw [exec_dgData_of_admitted (s := (s.acceptData s.payloadCount).showing 0x5000) hreaches hfree,
      State.payloadCount_acceptData_showing, hs.acceptData_acceptData]

theorem State.configure_configure (s : State) (r : Half) :
    (s.configure.showing r).configure.showing r = s.configure.showing r := by
  apply State.ext
  case shortName => simp +contextual [State.configure_shortName]
  case longName => simp +contextual [State.configure_longName]
  case ua =>
    simp only [State.configure_ua s, State.showing_ua, State.configure_ua (s.configure.showing r), State.showing_raw,
      State.showing_par, State.configure_raw, State.configure_par, subnetOf_joinAddress, universeOf_joinAddress]
    congr 1 <;> split <;> rfl
  case lockValid => simp [State.configure_lockValid]
  all_goals simp

theorem repeats_dgAddress : Repeats .dgAddress := by
  intro s t hs h
  obtain ⟨hshort, rfl⟩ | ⟨hfull, rfl⟩ := exec_dgAddress_cases h
  · exact exec_dgAddress_of_short hshort
  · rw [exec_dgAddress_of_full (by simpa using hfull), State.configure_configure]

theorem repeats_datagramInstr (d : Datagram) : Repeats d.instr := by
  cases d with
  | data => exact repeats_dgData
  | address => exact repeats_dgAddress
  | poll | pollReply | other op =>
    intro s t _ h
    cases h
    rfl

/-- R108: DECODE does not consume the buffer, so the arm that ran runs again. -/
theorem repeats_decode : Repeats .decode := by
  intro s t hs h
  have ⟨hraw, hlen⟩ : s.SameIn t .raw := exec_sameIn h (by simp [Field.WrittenBy])
  have hholds : ∀ op, t.Holds op ↔ s.Holds op := fun op => by
    rw [State.Holds, State.Holds, hraw, hlen, (exec_keeps h).par]
  by_cases hop : ∃ op, s.Holds op
  · obtain ⟨op, hop⟩ := hop
    rw [exec_decode_of_holds hop] at h
    rw [exec_decode_of_holds ((hholds op).mpr hop)]
    exact repeats_datagramInstr _ s t hs h
  · rw [exec_decode_of_not_holds fun op hs => hop ⟨op, hs⟩, Host.Outcome.next.injEq] at h
    rw [exec_decode_of_not_holds fun op ht => hop ⟨op, (hholds op).mp ht⟩, ← h, State.showing_showing]

/-- Settles O11 by the cases of an instruction: reads write the result port alone, and each write is one that repeats. -/
theorem repeatingAnyOtherCommandChangesNothing : Obligations.RepeatingAnyOtherCommandChangesNothing := by
  unfold Obligations.RepeatingAnyOtherCommandChangesNothing
  intro i s t hs hi h
  cases i with
  | encData dest => exact absurd rfl (hi dest)
  | decode => exact repeats_decode s t hs h
  | dgData => exact repeats_dgData s t hs h
  | dgAddress => exact repeats_dgAddress s t hs h
  | rxload src bytes => exact repeats_rxload src bytes s t hs h
  | encPollReply src => exact repeats_encPollReply src s t hs h
  | setUniverse u => exact repeats_setUniverse u s t hs h
  | setSubnetUniverse sub u => exact repeats_setSubnetUniverse sub u s t hs h
  | setUniverseAddress c => exact repeats_setUniverseAddress c s t hs h
  | setSubnetAddress c => exact repeats_setSubnetAddress c s t hs h
  | setNumSlots n => exact repeats_setNumSlots n s t hs h
  | setSlot idx v => exact repeats_setSlot idx v s t hs h
  | getUniverse | getSubnetUniverse | getNumSlots | getSlot | readSlots | reservedF | dgPoll | dgPollReply | dgOther =>
    cases h
    rfl

end Sys2Proof.Machine

/-! # States that look alike (`70_reset_and_hazards.md` rule R246, `20_memory.md` rule R60)

A simulation: every instruction takes states that agree on what R246 lists to states that agree on it and show the same results. The
stale bytes of `raw` never matter because every read of it lies below `rawLen`, the address of a free lock because only a held
lock is compared. -/

namespace Sys2Proof.Machine

/-- The states agree on everything R246 lists, and their result ports show the same. -/
structure State.LooksLike (s t : State) : Prop where
  alike    : s.Alike t
  ret      : s.ret = t.ret
  txDest   : s.txDest = t.txDest
  slotsOut : s.slotsOut = t.slotsOut

/-- Both outcomes are next states, and these look alike. -/
def OutcomesLookAlike (o p : Host.Outcome State Fault Refusal) : Prop := ∃ s t, o = .next s ∧ p = .next t ∧ s.LooksLike t

section Alike

variable {s t : State}

theorem State.Alike.refl (s : State) : s.Alike s where
  slots := rfl
  activeSlots := rfl
  ua := rfl
  seq := rfl
  lockValid := rfl
  lockAddr := fun _ => rfl
  rxSrc := rfl
  rawLen := rfl
  raw := fun _ _ => rfl
  shortName := rfl
  longName := rfl
  nodeAddr := rfl
  bcastValid := rfl
  bcastAddr := rfl
  par := rfl
  port := rfl

theorem State.LooksLike.refl (s : State) : s.LooksLike s := ⟨.refl s, rfl, rfl, rfl⟩

theorem State.Alike.sameDatagram (h : s.Alike t) : s.SameDatagram t := ⟨h.rawLen, h.raw⟩

/-- Equal results and equal datagrams are all that the environment sees. -/
theorem State.LooksLike.observe (h : s.LooksLike t) : s.observe = t.observe := by
  rw [State.observe, State.observe, State.transmit, State.transmit, h.alike.sameDatagram.datagram, h.ret, h.txDest, h.slotsOut]

theorem State.Alike.respond (h : s.Alike t) {r r' : Half} {d d' : Option Addr} {o o' : Option (List Byte)} (hr : r = r')
    (hd : d = d') (ho : o = o') : OutcomesLookAlike (.next (s.respond r d o)) (.next (t.respond r' d' o')) :=
  ⟨_, _, rfl, rfl, { h with }, hr, hd, ho⟩

theorem State.Alike.showing (h : s.Alike t) {r r' : Half} (hr : r = r') :
    OutcomesLookAlike (.next (s.showing r)) (.next (t.showing r')) := h.respond hr rfl rfl

/-! ## The shared operations -/

theorem State.Alike.withPort (h : s.Alike t) (port : List Request) :
    State.Alike { s with port := port } { t with port := port } := { h with port := rfl }

theorem State.Alike.setAddress (h : s.Alike t) {ua ua' : Byte} (hua : ua = ua') : (s.setAddress ua).Alike (t.setAddress ua') :=
  { h with ua := hua }

theorem State.Alike.setActive (h : s.Alike t) (n : BitVec 10) : (s.setActive n).Alike (t.setActive n) :=
  { h with activeSlots := rfl }

theorem State.Alike.advanceSeq (h : s.Alike t) : s.advanceSeq.Alike t.advanceSeq :=
  { h with seq := congrArg (· + 1) h.seq }

theorem State.Alike.latchSource (h : s.Alike t) (src : Addr) : (s.latchSource src).Alike (t.latchSource src) :=
  { h with rxSrc := rfl }

theorem State.Alike.takeLock (h : s.Alike t) : s.takeLock.Alike t.takeLock :=
  { h with lockValid := rfl, lockAddr := fun _ => h.rxSrc }

theorem State.Alike.copyPayload (h : s.Alike t) {vs vs' : List Byte} (hvs : vs = vs') :
    (s.copyPayload vs).Alike (t.copyPayload vs') :=
  { h with slots := by rw [State.copyPayload_slots, State.copyPayload_slots, h.slots, hvs] }

theorem State.Alike.writeSlot (h : s.Alike t) (j : Nat) (v : Byte) : (s.writeSlot j v).Alike (t.writeSlot j v) := by
  unfold State.writeSlot
  split
  · exact { h with slots := congrArg (·.write j v) h.slots }
  · exact h

theorem State.Alike.putDatagram (h : s.Alike t) (hs : s.Wf) (ht : t.Wf) (bytes : List Byte) :
    (s.putDatagram bytes).Alike (t.putDatagram bytes) :=
  { h with
    rawLen := rfl
    raw := fun k hk => by
      rw [State.putDatagram_rawLen] at hk
      rw [State.putDatagram_raw, State.putDatagram_raw, Memory.read_writeBytes hs.rawForm, Memory.read_writeBytes ht.rawForm,
        if_pos (by omega), if_pos (by omega)] }

theorem State.Alike.dataDatagram (h : s.Alike t) : s.dataDatagram = t.dataDatagram := by
  simp only [State.dataDatagram, State.dataFixedBytes, h.par, h.seq, h.ua, h.activeSlots, h.slots]

theorem State.Alike.replyContents (h : s.Alike t) : s.replyContents = t.replyContents := by
  simp only [State.replyContents, State.lockStatus, h.par, h.ua, h.nodeAddr, h.shortName, h.longName, h.lockValid]

theorem State.Alike.putReply (h : s.Alike t) (hs : s.Wf) (ht : t.Wf) : s.putReply.Alike t.putReply :=
  { h with
    rawLen := rfl
    raw := fun _ hk => hs.read_putReply_congr ht h.par h.replyContents hk }

theorem State.Alike.replyDest (h : s.Alike t) (src : Addr) : s.replyDest src = t.replyDest src := by
  rw [State.replyDest, State.replyDest, h.bcastValid, h.bcastAddr]

/-! ## The datagram arms -/

theorem State.Alike.lockedAgainst_iff (h : s.Alike t) : s.LockedAgainst ↔ t.LockedAgainst := by
  rw [State.LockedAgainst, State.LockedAgainst, ← h.lockValid, ← h.rxSrc]
  exact and_congr_right fun hheld => by rw [h.lockAddr hheld]

theorem State.Alike.reachesArbiter_iff (h : s.Alike t) : s.ReachesArbiter ↔ t.ReachesArbiter :=
  ⟨h.sameDatagram.reachesArbiter h.ua, h.sameDatagram.symm.reachesArbiter h.ua.symm⟩

theorem State.Alike.holds_iff (h : s.Alike t) (op : Half) : s.Holds op ↔ t.Holds op :=
  ⟨h.sameDatagram.holds (congrArg Params.magic h.par), h.sameDatagram.symm.holds (congrArg Params.magic h.par.symm)⟩

theorem State.Alike.acceptData (h : s.Alike t) {len : Nat} (hlen : 18 + len ≤ s.rawLen) :
    (s.acceptData len).Alike (t.acceptData len) :=
  ((h.copyPayload (h.sameDatagram.readBytes hlen)).setActive _).takeLock

/-- The fields ADDRESS reads lie inside the minimum length (R141). -/
theorem State.Alike.configure (h : s.Alike t) (hs : s.Wf) (hfull : s.par.addrMinLen ≤ s.rawLen) :
    s.configure.Alike t.configure := by
  obtain ⟨-, -, -, -, -, -, -, ⟨hshortPos, hlongPos, hshort, hlong, huniverse, hsubnet, hcommand⟩, -⟩ := hs.params
  have hread {k : Nat} (hk : k < s.par.addrMinLen) : s.raw.read k = t.raw.read k := h.raw k (by omega)
  have hbytes {a n : Nat} (hn : a + n ≤ s.par.addrMinLen) : s.raw.readBytes a n = t.raw.readBytes a n :=
    h.sameDatagram.readBytes (by omega)
  constructor
  case ua => rw [State.configure_ua, State.configure_ua, hread huniverse, hread hsubnet, h.ua, h.par]
  case lockValid => rw [State.configure_lockValid, State.configure_lockValid, hread hcommand, h.lockValid, h.par]
  case shortName =>
    rw [State.configure_shortName, State.configure_shortName, hread (by omega), hbytes hshort, h.shortName, h.par]
  case longName =>
    rw [State.configure_longName, State.configure_longName, hread (by omega), hbytes hlong, h.longName, h.par]
  case lockAddr =>
    intro hheld
    have ⟨hvalid, _⟩ := s.configure_lockValid_iff.mp hheld
    simpa using h.lockAddr hvalid
  case raw => simpa using h.raw
  all_goals
    simp [h.slots, h.activeSlots, h.seq, h.rxSrc, h.rawLen, h.nodeAddr, h.bcastValid, h.bcastAddr, h.par, h.port]

theorem exec_dgData_alike (h : s.Alike t) : OutcomesLookAlike (exec .dgData s) (exec .dgData t) := by
  have hlen := h.rawLen
  by_cases hadmitted : s.ReachesArbiter ∧ ¬s.LockedAgainst
  · obtain ⟨hreaches, hlock⟩ := hadmitted
    have hcount := s.payloadCount_le_rawLen
    have ⟨hfull, _⟩ := hreaches
    rw [exec_dgData_of_admitted hreaches hlock,
      exec_dgData_of_admitted (h.reachesArbiter_iff.mp hreaches) (mt h.lockedAgainst_iff.mpr hlock),
      ← h.sameDatagram.payloadCount]
    exact (h.acceptData (by omega)).showing rfl
  · obtain hshort | hfull := Nat.lt_or_ge s.rawLen 18
    · rw [exec_dgData_of_short hshort, exec_dgData_of_short (hlen ▸ hshort)]
      exact h.showing rfl
    · have hadmitted' : ¬(t.ReachesArbiter ∧ ¬t.LockedAgainst) := by
        rwa [← h.reachesArbiter_iff, ← h.lockedAgainst_iff]
      rw [exec_dgData_of_not_admitted hfull hadmitted, exec_dgData_of_not_admitted (hlen ▸ hfull) hadmitted']
      exact h.showing rfl

theorem exec_dgAddress_alike (h : s.Alike t) (hs : s.Wf) : OutcomesLookAlike (exec .dgAddress s) (exec .dgAddress t) := by
  have hlen := h.rawLen
  have hmin : s.par.addrMinLen = t.par.addrMinLen := congrArg Params.addrMinLen h.par
  obtain hshort | hfull := Nat.lt_or_ge s.rawLen s.par.addrMinLen
  · rw [exec_dgAddress_of_short hshort, exec_dgAddress_of_short (by omega)]
    exact h.showing rfl
  · rw [exec_dgAddress_of_full hfull, exec_dgAddress_of_full (by omega)]
    exact (h.configure hs hfull).showing rfl

theorem exec_datagramInstr_alike (h : s.Alike t) (hs : s.Wf) (d : Datagram) :
    OutcomesLookAlike (exec d.instr s) (exec d.instr t) := by
  cases d with
  | data => exact exec_dgData_alike h
  | address => exact exec_dgAddress_alike h hs
  | poll | pollReply | other op => exact h.showing rfl

theorem exec_decode_alike (h : s.Alike t) (hs : s.Wf) : OutcomesLookAlike (exec .decode s) (exec .decode t) := by
  by_cases hop : ∃ op, s.Holds op
  · obtain ⟨op, hop⟩ := hop
    rw [exec_decode_of_holds hop, exec_decode_of_holds ((h.holds_iff op).mp hop)]
    exact exec_datagramInstr_alike h hs _
  · have hnone : ∀ op, ¬s.Holds op := fun op hholds => hop ⟨op, hholds⟩
    rw [exec_decode_of_not_holds hnone, exec_decode_of_not_holds fun op => mt (h.holds_iff op).mpr (hnone op)]
    exact h.showing rfl

/-! ## Instructions, steps and runs -/

theorem exec_setNumSlots_alike (h : s.Alike t) (n : Half) :
    OutcomesLookAlike (exec (.setNumSlots n) s) (exec (.setNumSlots n) t) := by
  by_cases hrange : 1 ≤ n.toNat ∧ n.toNat ≤ 512
  · rw [exec_setNumSlots_of_inRange hrange, exec_setNumSlots_of_inRange hrange]
    exact (h.setActive _).showing rfl
  · have hout : n.toNat = 0 ∨ 512 < n.toNat := by omega
    rw [exec_setNumSlots_of_outOfRange hout, exec_setNumSlots_of_outOfRange hout]
    exact h.showing rfl

/-- Every instruction preserves looking alike, whatever the result ports showed before. -/
theorem exec_alike (h : s.Alike t) (hs : s.Wf) (ht : t.Wf) (i : Instr) : OutcomesLookAlike (exec i s) (exec i t) := by
  cases i with
  | rxload src bytes =>
    rw [exec_rxload, exec_rxload, State.receive, State.receive, h.par]
    exact ((h.putDatagram hs ht _).latchSource src).showing rfl
  | decode => exact exec_decode_alike h hs
  | encData dest =>
    rw [exec_encData, exec_encData, State.encodeData, State.encodeData, h.dataDatagram]
    exact (h.putDatagram hs ht _).advanceSeq.respond rfl rfl rfl
  | encPollReply src =>
    rw [exec_encPollReply, exec_encPollReply, h.replyDest]
    exact (h.putReply hs ht).respond rfl rfl rfl
  | setUniverse u =>
    rw [exec_setUniverse, exec_setUniverse, h.ua]
    exact (h.setAddress rfl).showing rfl
  | setSubnetUniverse sub u => exact (h.setAddress rfl).showing rfl
  | setUniverseAddress c =>
    rw [exec_setUniverseAddress, exec_setUniverseAddress, State.applyUniverse_ua, State.applyUniverse_ua, h.ua]
    exact (h.setAddress rfl).showing rfl
  | setSubnetAddress c =>
    rw [exec_setSubnetAddress, exec_setSubnetAddress, State.applySubnet_ua, State.applySubnet_ua, h.ua]
    exact (h.setAddress rfl).showing rfl
  | getUniverse =>
    rw [exec_getUniverse, exec_getUniverse, h.ua]
    exact h.showing rfl
  | getSubnetUniverse =>
    rw [exec_getSubnetUniverse, exec_getSubnetUniverse, h.ua]
    exact h.showing rfl
  | setNumSlots n => exact exec_setNumSlots_alike h n
  | getNumSlots =>
    rw [exec_getNumSlots, exec_getNumSlots, h.activeSlots]
    exact h.showing rfl
  | setSlot idx v => exact (h.writeSlot idx.toNat v).showing rfl
  | getSlot idx =>
    rw [exec_getSlot, exec_getSlot, State.readSlot, State.readSlot, h.slots]
    exact h.showing rfl
  | readSlots =>
    rw [exec_readSlots, exec_readSlots, h.slots]
    exact h.respond rfl rfl rfl
  | dgData => exact exec_dgData_alike h
  | dgAddress => exact exec_dgAddress_alike h hs
  | reservedF | dgPoll | dgPollReply | dgOther op => exact h.showing rfl

/-- Serving a request, whatever the result ports showed before. -/
theorem step_alike (h : s.Alike t) (hs : s.Wf) (ht : t.Wf) (hport : s.port ≠ []) :
    OutcomesLookAlike (step s) (step t) := by
  obtain ⟨hidle, -⟩ | ⟨nodeAddr, bcast, rest, hreq, hreset⟩ | ⟨c, rest, hreq, hcommand⟩ := step_cases s
  · exact absurd hidle hport
  · rw [hreset, step_reset (h.port ▸ hreq), h.par]
    exact ⟨_, _, rfl, rfl, .refl _⟩
  · rw [hcommand, step_command (h.port ▸ hreq)]
    exact exec_alike (h.withPort rest) (hs.withPort rest) (ht.withPort rest) _

/-- One step of two states that look alike to the environment. -/
theorem step_alike_of_next {s' t' : State} (h : s.Alike t) (hs : s.Wf) (ht : t.Wf) (hport : s.port ≠ [])
    (hstep : step s = .next s') (hstep' : step t = .next t') : s'.Alike t' ∧ s'.observe = t'.observe := by
  obtain ⟨u, v, hu, hv, hlooks⟩ := step_alike h hs ht hport
  obtain rfl : u = s' := by simpa [hu] using hstep
  obtain rfl : v = t' := by simpa [hv] using hstep'
  exact ⟨hlooks.alike, hlooks.observe⟩

/-- The same with idling, which shows what was shown before. -/
theorem step_alike_of_observe {s' t' : State} (h : s.Alike t) (hs : s.Wf) (ht : t.Wf) (hobserve : s.observe = t.observe)
    (hstep : step s = .next s') (hstep' : step t = .next t') : s'.Alike t' ∧ s'.observe = t'.observe := by
  by_cases hport : s.port = []
  · rw [step_idle hport, Host.Outcome.next.injEq] at hstep
    rw [step_idle (h.port ▸ hport), Host.Outcome.next.injEq] at hstep'
    exact hstep ▸ hstep' ▸ ⟨h, hobserve⟩
  · exact step_alike_of_next h hs ht hport hstep hstep'

end Alike

theorem step_answers (s : State) : ∃ t, step s = .next t := by
  obtain ⟨-, hidle⟩ | ⟨_, _, _, -, hreset⟩ | ⟨c, rest, -, hcommand⟩ := step_cases s
  · exact ⟨_, hidle⟩
  · exact ⟨_, hreset⟩
  · obtain ⟨t, ht, -⟩ := exec_answers (decodeCommand c) { s with port := rest }
    exact ⟨t, hcommand.trans ht⟩

/-- Looking alike to the environment is kept along every run. -/
theorem run_alike {n : Nat} {s t s' t' : State} (hs : s.Wf) (ht : t.Wf) (h : s.Alike t) (hobserve : s.observe = t.observe)
    (hrun : Host.Core.run Sys2Proof.core n s = .next s') (hrun' : Host.Core.run Sys2Proof.core n t = .next t') :
    s'.Alike t' ∧ s'.observe = t'.observe := by
  induction n generalizing s t with
  | zero =>
    obtain rfl : s = s' := Host.Outcome.next.inj hrun
    obtain rfl : t = t' := Host.Outcome.next.inj hrun'
    exact ⟨h, hobserve⟩
  | succ n ih =>
    obtain ⟨u, hu⟩ := step_answers s
    obtain ⟨v, hv⟩ := step_answers t
    obtain ⟨halike, hobserve'⟩ := step_alike_of_observe h hs ht hobserve hu hv
    obtain ⟨hwf, -⟩ := stepKeepsInvariant s u hs hu
    obtain ⟨hwf', -⟩ := stepKeepsInvariant t v ht hv
    rw [run_succ hu] at hrun
    rw [run_succ hv] at hrun'
    exact ih hwf hwf' halike hobserve' hrun hrun'

/-- Settles O47: one request by the simulation `step_alike`, a run by induction on its length. -/
theorem hiddenStateIsUnobservable : Obligations.HiddenStateIsUnobservable := by
  unfold Obligations.HiddenStateIsUnobservable
  exact ⟨fun _ _ _ _ hs ht h hport => step_alike_of_next h hs ht hport, fun _ _ _ _ _ hs ht h => run_alike hs ht h⟩

end Sys2Proof.Machine
